-- ==== Sys2Proof/Word.lean ====
section
/-! DEFINITION. The word types of the block: bytes and 16-bit command words, masks and results
(spec/00_scope.md R15, spec/10_state.md R30). -/

namespace Sys2Proof

/-- An 8-bit register, a port value or one byte of the host interface. -/
abbrev Byte := BitVec 8

/-- A 16-bit register: a command word (R100), a pad mask (R33) or the result register (R40). -/
abbrev Word := BitVec 16

/-- An offset into the 32-location host register space (spec/20_memory.md R71). -/
abbrev Offset := BitVec 5

end Sys2Proof
end

