-- ==== Sys2Proof/Syntax.lean ====
section
/-! DEFINITION. The commands of the ZSM-CORE command set, version 1 (spec/30_encoding.md), the
error codes (spec/60_exceptions.md R241) and the assembler's commands (R111, R112). -/

namespace Sys2Proof

/-- A physical pad port, numbered 1 or 2 (spec/00_scope.md R8, R20). -/
inductive Port where
  | p1
  | p2
deriving DecidableEq, Repr

/-- A data line that can be sampled: line 0 or line 1 (spec/10_state.md R47). -/
inductive Line where
  | l0
  | l1
deriving DecidableEq, Repr

/-- The ten commands, one constructor per row of the opcode map (spec/30_encoding.md R106).
Operands are already decoded, so every term is a legal command. -/
inductive Instr where
  /-- `initialize()`: R136. -/
  | init
  /-- `flush()`: R210. -/
  | flush
  /-- `readPad(port)`: R182. -/
  | rdpad (p : Port)
  /-- `readMouse(port)`: R194. -/
  | rdmouse (p : Port)
  /-- `classify(port)`: R215. -/
  | classify (p : Port)
  /-- `setSensitivity(port, level)`: R231. -/
  | setsens (p : Port) (level : Byte)
  /-- `pulseLatch()`: R138. -/
  | platch
  /-- `pulseClock()`: R139. -/
  | pclock
  /-- `sample(line)`: R140. -/
  | sample (l : Line)
  /-- `wait(cycles)`: R142. -/
  | wait (cycles : Byte)
deriving DecidableEq, Repr

/-- Why the block refuses a command (spec/60_exceptions.md R241, codes 1 to 5). -/
inductive CmdError where
  /-- The opcode is 0x0 or 0xB–0xF. -/
  | illop
  /-- A bit that must be 0 is 1. -/
  | rsvd
  /-- SEL is 2 or 3. -/
  | badsel
  /-- CSR.INITD = 0 for a command that drives the latch or clock line. -/
  | notinit
  /-- RDMOUSE with FPOS ≠ 0x8F. -/
  | seq
deriving DecidableEq, Repr

/-- A command as the assembler reads it: port and line numbers and immediates are still plain
numbers (spec/30_encoding.md R111), and the pseudo-instructions of R112 are present. Which of
these terms are legal source is checked in WellFormed.lean. -/
inductive Asm where
  | init
  | flush
  | rdpad (port : Nat)
  | rdmouse (port : Nat)
  | classify (port : Nat)
  | setsens (port level : Nat)
  | platch
  | pclock
  | sample (line : Nat)
  | wait (cycles : Nat)
  /-- `.cmd 0xWWWW`: the word as given, legal or not. -/
  | raw (word : Nat)
  /-- Pseudo-instruction: `WAIT 0`. -/
  | nop
  /-- Pseudo-instruction: `RDPAD pN` then `RDMOUSE pN`. -/
  | mframe (port : Nat)
  /-- Pseudo-instruction: `RDPAD p1`. -/
  | readpads
deriving DecidableEq, Repr

end Sys2Proof
end

