-- ==== Sys2Proof/WellFormed.lean ====
section
/-! DEFINITION. Which assembler commands are legal source (spec/30_encoding.md R111): a port operand
is `p1` or `p2`, a line operand `l0` or `l1`, an immediate 0–255, a raw word 16 bits. The operands of
`Instr` are typed, so each of its terms is well formed; R109 says the same of legal words: each
decodes to one command in every state. -/

namespace Sys2Proof

/-- A port operand is `p1` or `p2` (R103, R111). -/
def portInRange (n : Nat) : Bool := n == 1 || n == 2

/-- A line operand is `l0` or `l1` (R104, R111). -/
def lineInRange (n : Nat) : Bool := n == 0 || n == 1

/-- An immediate is 0–255 (R105, R111). -/
def immInRange (n : Nat) : Bool := decide (n ≤ 255)

/-- A raw word has 16 bits (R100, R111). -/
def rawInRange (n : Nat) : Bool := decide (n ≤ 0xFFFF)

/-- Whether an assembler command is legal source. -/
def Asm.wellFormed : Asm → Bool
  | .init => true
  | .flush => true
  | .rdpad n => portInRange n
  | .rdmouse n => portInRange n
  | .classify n => portInRange n
  | .setsens n v => portInRange n && immInRange v
  | .platch => true
  | .pclock => true
  | .sample n => lineInRange n
  | .wait v => immInRange v
  | .raw w => rawInRange w
  | .nop => true
  | .mframe n => portInRange n
  | .readpads => true

end Sys2Proof
end

