-- ==== Sys2Proof/Decode.lean ====
section
/-! DEFINITION. The command word: its fields, the decoder (spec/30_encoding.md R110), the encoder
(R102, R111) and the words an assembler command stands for (R111, R112). -/

namespace Sys2Proof

/-- The low byte of a 16-bit register, at the lower of its two offsets (spec/20_memory.md R77). -/
def lowByte (w : Word) : Byte := w.extractLsb' 0 8

/-- The high byte of a 16-bit register, at the higher of its two offsets (R77). -/
def highByte (w : Word) : Byte := w.extractLsb' 8 8

/-- The 16-bit value `{hi, lo}` (R42, R73). -/
def joinBytes (hi lo : Byte) : Word := hi ++ lo

/-- OP, bits 15:12 (R101). -/
def opField (c : Word) : BitVec 4 := c.extractLsb' 12 4

/-- RSV, bits 11:10 (R101). -/
def rsvField (c : Word) : BitVec 2 := c.extractLsb' 10 2

/-- SEL, bits 9:8 (R101). -/
def selField (c : Word) : BitVec 2 := c.extractLsb' 8 2

/-- IMM8, bits 7:0 (R101). -/
def immField (c : Word) : Byte := c.extractLsb' 0 8

/-- `port = SEL + 1`; SEL = 2 and 3 name no port (R103). -/
def portOfSel (sel : BitVec 2) : Option Port :=
  if sel = 0 then some .p1 else if sel = 1 then some .p2 else none

/-- `line = SEL`; SEL = 2 and 3 name no input line (R104). -/
def lineOfSel (sel : BitVec 2) : Option Line :=
  if sel = 0 then some .l0 else if sel = 1 then some .l1 else none

/-- Format N: bits 11:0 must be 0. -/
def decodeN (c : Word) (i : Instr) : Except CmdError Instr :=
  if rsvField c ≠ 0 ∨ selField c ≠ 0 ∨ immField c ≠ 0 then .error .rsvd else .ok i

/-- Format P: bits 11:10 and 7:0 must be 0, then SEL must name a port. -/
def decodeP (c : Word) (i : Port → Instr) : Except CmdError Instr :=
  if rsvField c ≠ 0 ∨ immField c ≠ 0 then .error .rsvd
  else match portOfSel (selField c) with
    | some p => .ok (i p)
    | none => .error .badsel

/-- Format PL: bits 11:10 must be 0, then SEL must name a port; every level is legal. -/
def decodePL (c : Word) (i : Port → Byte → Instr) : Except CmdError Instr :=
  if rsvField c ≠ 0 then .error .rsvd
  else match portOfSel (selField c) with
    | some p => .ok (i p (immField c))
    | none => .error .badsel

/-- Format L: bits 11:10 and 7:0 must be 0, then SEL must name an input line. -/
def decodeL (c : Word) (i : Line → Instr) : Except CmdError Instr :=
  if rsvField c ≠ 0 ∨ immField c ≠ 0 then .error .rsvd
  else match lineOfSel (selField c) with
    | some l => .ok (i l)
    | none => .error .badsel

/-- Format I: bits 11:8 must be 0; every count is legal. -/
def decodeI (c : Word) (i : Byte → Instr) : Except CmdError Instr :=
  if rsvField c ≠ 0 ∨ selField c ≠ 0 then .error .rsvd else .ok (i (immField c))

/-- The decoder, total on all 65536 words: the first failing check gives the error (R110). -/
def decode (c : Word) : Except CmdError Instr :=
  match (opField c).toNat with
  | 0x1 => decodeN c .init
  | 0x2 => decodeN c .flush
  | 0x3 => decodeP c .rdpad
  | 0x4 => decodeP c .rdmouse
  | 0x5 => decodeP c .classify
  | 0x6 => decodePL c .setsens
  | 0x7 => decodeN c .platch
  | 0x8 => decodeN c .pclock
  | 0x9 => decodeL c .sample
  | 0xA => decodeI c .wait
  | _ => .error .illop

/-- `SEL = port - 1` (R103). -/
def selOfPort : Port → BitVec 2
  | .p1 => 0
  | .p2 => 1

/-- `SEL = line` (R104). -/
def selOfLine : Line → BitVec 2
  | .l0 => 0
  | .l1 => 1

/-- A command word from its fields, RSV = 0 (R101). -/
def wordOf (op : BitVec 4) (sel : BitVec 2) (imm : Byte) : Word := op ++ (0#2 ++ (sel ++ imm))

/-- The word of a command (R102, R106). -/
def encode : Instr → Word
  | .init => wordOf 0x1 0 0
  | .flush => wordOf 0x2 0 0
  | .rdpad p => wordOf 0x3 (selOfPort p) 0
  | .rdmouse p => wordOf 0x4 (selOfPort p) 0
  | .classify p => wordOf 0x5 (selOfPort p) 0
  | .setsens p level => wordOf 0x6 (selOfPort p) level
  | .platch => wordOf 0x7 0 0
  | .pclock => wordOf 0x8 0 0
  | .sample l => wordOf 0x9 (selOfLine l) 0
  | .wait n => wordOf 0xA 0 n

/-- Port number `N` of the assembler (R111). -/
def portOfNumber (n : Nat) : Port := if n = 1 then .p1 else .p2

/-- Line number `N` of the assembler (R111). -/
def lineOfNumber (n : Nat) : Line := if n = 0 then .l0 else .l1

/-- The words of an assembler command whose operands are in range (R111; the pseudo-instructions: R112). -/
def Asm.words : Asm → List Word
  | .init => [encode .init]
  | .flush => [encode .flush]
  | .rdpad n => [encode (.rdpad (portOfNumber n))]
  | .rdmouse n => [encode (.rdmouse (portOfNumber n))]
  | .classify n => [encode (.classify (portOfNumber n))]
  | .setsens n v => [encode (.setsens (portOfNumber n) (BitVec.ofNat 8 v))]
  | .platch => [encode .platch]
  | .pclock => [encode .pclock]
  | .sample n => [encode (.sample (lineOfNumber n))]
  | .wait v => [encode (.wait (BitVec.ofNat 8 v))]
  | .raw w => [BitVec.ofNat 16 w]
  | .nop => [encode (.wait 0)]
  | .mframe n => [encode (.rdpad (portOfNumber n)), encode (.rdmouse (portOfNumber n))]
  | .readpads => [encode (.rdpad .p1)]

/-- Assembles a command, refusing one that is not legal source. -/
def assemble (a : Asm) : Option (List Word) := if a.wellFormed then some a.words else none

/-- The instruction the decoder reads from the low `nbits` bits of `w` as one command word, numbered
as spec/opcode_table.json numbers them (bit 0 is the least significant). -/
def decodeTableWord (nbits w : Nat) : Option Instr :=
  match decode (BitVec.ofNat 16 (w % 2 ^ nbits)) with
  | .ok i => some i
  | .error _ => none

end Sys2Proof
end

