-- ==== Sys2Proof/Machine/Trace.lean ====
section
/-! DEFINITION. The line events of a transaction (spec/00_scope.md R16), what the rules count in a
trace (spec/70_reset_and_hazards.md R286, R288), and the event sequences the commands' rules write
out. -/

namespace Sys2Proof.Machine

/-- The kinds of delay (R16). -/
inductive Delay where
  | settle
  | sensLong
  | sensGap
  | wait (n : Byte)
deriving DecidableEq, Repr

/-- A line event (R16). -/
inductive Event where
  /-- `W(v)`: the value `v` is written to POUT. -/
  | w (v : Byte)
  /-- `P(m)`: the value `m` is written to PDIR. -/
  | p (m : Byte)
  /-- `S(l)`: input line `l` is sampled. -/
  | s (l : Line)
  /-- `D(k)`: a delay of kind `k`. -/
  | d (k : Delay)
deriving DecidableEq, Repr

/-- The timing parameters the source leaves open (spec/00_scope.md R9; log 8): the frequency of the clock
input, in periods per second, and five durations in seconds. Each is any number that is not negative. No
rule that computes a register value reads them (R289). -/
structure Timing where
  /-- F_CLK, the frequency of the block's clock input (R9; spec/20_memory.md R90). -/
  fClk : NNRat
  /-- T_PULSE, the duration of one latch or clock primitive. -/
  tPulse : NNRat
  /-- T_SETTLE, the short delay after a clock pulse. -/
  tSettle : NNRat
  /-- T_SENS_LONG, the longer delay of SETSENS. -/
  tSensLong : NNRat
  /-- T_SENS_GAP, the delay after each priming pulse of SETSENS. -/
  tSensGap : NNRat
  /-- T_WAIT_UNIT, the duration of one unit of WAIT. -/
  tWaitUnit : NNRat
deriving DecidableEq

/-- How many periods of the clock a duration takes: duration times F_CLK, the conversion of
spec/70_reset_and_hazards.md R287 (1.6 µs at 10 MHz is 16 periods). For information only. -/
def Timing.clockPeriods (t : Timing) (duration : NNRat) : NNRat := duration * t.fClk

/-- `LATCH_PULSE` as events (spec/40_port_driver.md R132). -/
def latchEvents : List Event := [.w 0x0C, .w 0x08]

/-- `CLOCK_PULSE` as events (R134). -/
def clockEvents : List Event := [.w 0x00, .w 0x08]

/-- `n` copies of a list of events, one after the other. -/
def copies (n : Nat) (es : List Event) : List Event := (List.replicate n es).flatten

/-- The trace of FRAME16 (spec/41_frame_reader.md R161):
`W(0x0C) W(0x08) S(0) S(1) {W(0x00) W(0x08) S(0) S(1)} × 15`. -/
def frame16Events : List Event :=
  latchEvents ++ [.s .l0, .s .l1] ++ copies 15 (clockEvents ++ [.s .l0, .s .l1])

/-- The trace of one READ8 (spec/43_mouse_decoder.md R191). -/
def read8Events (l : Line) : List Event := copies 8 (clockEvents ++ [.d .settle, .s l])

/-- The trace of RDMOUSE (R194): `{W(0x00) W(0x08) D(SETTLE) S(l)} × 16`. -/
def mouseEvents (l : Line) : List Event := copies 16 (clockEvents ++ [.d .settle, .s l])

/-- The trace of SETSENS (spec/45_sensitivity.md R231). -/
def setsensEvents : List Event :=
  latchEvents ++ copies 15 (clockEvents ++ [.d .settle]) ++ [.d .sensLong]
    ++ copies 31 (latchEvents ++ [.d .sensGap])

/-- The number of latch pulses of a trace: each begins with the one write of 0x0C (R132). -/
def latchPulses (tr : List Event) : Nat := tr.count (.w 0x0C)

/-- The number of clock pulses of a trace: each begins with the one write of 0x00 (R134). -/
def clockPulses (tr : List Event) : Nat := tr.count (.w 0x00)

/-- The number of samples of one line in a trace. -/
def samplesOf (l : Line) (tr : List Event) : Nat := tr.count (.s l)

/-- The number of samples in a trace, both lines together. -/
def samples (tr : List Event) : Nat := samplesOf .l0 tr + samplesOf .l1 tr

/-- Whether an event is a delay. -/
def Event.isDelay : Event → Bool
  | .d _ => true
  | _ => false

/-- The number of delays in a trace. -/
def delays (tr : List Event) : Nat := tr.countP Event.isDelay

/-- The duration parameter of a delay (R9, R142). -/
def Delay.duration (t : Timing) : Delay → NNRat
  | .settle => t.tSettle
  | .sensLong => t.tSensLong
  | .sensGap => t.tSensGap
  | .wait n => n.toNat * t.tWaitUnit

/-- The duration of an event where it is a delay, else 0. -/
def Event.delayDuration (t : Timing) : Event → NNRat
  | .d k => k.duration t
  | _ => 0

/-- R288's lower bound on the duration of a command: T_PULSE per pulse primitive and each delay's
parameter. For information only: no rule reads it. -/
def minDuration (t : Timing) (tr : List Event) : NNRat :=
  ((latchPulses tr + clockPulses tr : Nat) : NNRat) * t.tPulse + (tr.map (Event.delayDuration t)).sum

/-- The same lower bound counted in periods of F_CLK (R287, R288). For information only. -/
def minClockPeriods (t : Timing) (tr : List Event) : NNRat := t.clockPeriods (minDuration t tr)

end Sys2Proof.Machine
end

