-- ==== Sys2Proof/Config.lean ====
section
/-! DEFINITION. What the spec leaves open (spec/00_scope.md R9, R12): constants without a body, so
that nothing can be proved about their values. -/

namespace Sys2Proof

/-- SENS_STATUS, the "fixed status value" SETSENS returns (R9; spec/45_sensitivity.md R233): OPEN
(log 6). -/
opaque Config.sensStatus : Byte

/-- BLOCK_BASE, where the block's 32 offsets sit in the host's own address space
(spec/20_memory.md R82): OPEN (log 7). The block itself never reads it. -/
opaque Config.blockBase : Nat

/-- The oracle `smp` of R12: the raw level a data line shows at a sample, where the environment has
no answer ready in State (log 2). Its arguments are the number of samples drawn before, every event
of the machine so far with this sample's `S(l)` last, and the line. -/
opaque Config.smp : Nat → List Machine.Event → Line → Bool

end Sys2Proof
end

