-- ==== Sys2Proof/Machine/State.lean ====
section
/-! DEFINITION. The state of the block (spec/10_state.md R30, R54), of its two neighbours as far as
the model needs them (the host's pending inputs, the peripherals' ready answers, the trace), the
reasons a step can stop, and the state after reset. -/

namespace Sys2Proof.Machine

/-- MouseState of one port (R35–R38). -/
structure MouseState where
  /-- Y delta, two's complement. -/
  my : Byte
  /-- X delta, two's complement. -/
  mx : Byte
  /-- Compact status: bit 0 is "Y delta non-zero", bit 1 "X delta non-zero" (R36). -/
  mstat : Byte
  /-- `PAD[p][15:8]` as it stood when RDMOUSE ran (R37). -/
  mraw : Byte
deriving DecidableEq, Repr

/-- The fields of CSR that hold a value (R42). IEN and bit 7 are hardwired 0 and have no storage
(log 9); `Csr.toByte` gives the byte the host reads. -/
structure Csr where
  /-- Bit 0: INIT has run since reset. -/
  initd : Bool
  /-- Bit 2: BRAND holds a brand byte. -/
  brandv : Bool
  /-- Bit 3: some command has failed validation since reset. -/
  errs : Bool
  /-- Bits 6:4: the outcome code of the last issued command. -/
  err : BitVec 3
deriving DecidableEq, Repr

/-- What the world outside can do to the block between two transactions (R71–R75, R253, R270). -/
inductive Input where
  /-- `HostRead(off)`. -/
  | read (off : Offset)
  /-- `HostWrite(off, v)`. -/
  | write (off : Offset) (v : Byte)
  /-- The reset input, or power-up, while the block is idle (R270). -/
  | reset
  /-- `HostWrite(0x01, v)`, and a reset after `n` events of the command it issues (R253; log 5). -/
  | issueThenReset (v : Byte) (n : Nat)
deriving DecidableEq, Repr

/-- The whole state. -/
structure State where
  /-- PAD[1] (R33). -/
  pad1 : Word
  /-- PAD[2] (R33). -/
  pad2 : Word
  /-- MouseState of port 1 (R35–R38). -/
  mouse1 : MouseState
  /-- MouseState of port 2. -/
  mouse2 : MouseState
  /-- BRAND (R39). -/
  brand : Byte
  /-- RES (R40). -/
  res : Word
  /-- CMD (R42). -/
  cmd : Word
  /-- CSR (R42). -/
  csr : Csr
  /-- POUT (R45). -/
  pout : Byte
  /-- PDIR (R46). -/
  pdir : Byte
  /-- FPOS: bit 7 is V, bits 6:0 are CNT (R48). -/
  fpos : Byte
  /-- Model's own: the trace of the last transaction (spec/00_scope.md R13; log 3). -/
  trace : List Event
  /-- Model's own: every event before that transaction, oldest first (log 3). -/
  past : List Event
  /-- Model's own: the levels the environment has ready on line 0, the next one first (log 2). -/
  levels0 : List Bool
  /-- Model's own: the levels the environment has ready on line 1, the next one first (log 2). -/
  levels1 : List Bool
  /-- Model's own: how many samples have been drawn (log 2). -/
  draws : Nat
  /-- Model's own: the host's inputs not yet taken, oldest first (log 1). -/
  inbox : List Input
  /-- Model's own: the bytes answered to HostReads, oldest first (log 12). -/
  readData : List Byte
deriving DecidableEq, Repr

/-- Why the machine would stop. NO constructor: the spec gives the block no way to stop ("Each error
is defined behaviour of the block", spec/60_exceptions.md R249; R240, R246, R247). Nobody raises a
fault; that is safe, since no run ends early (log 13). -/
inductive Fault where
deriving DecidableEq, Repr

/-- Why the model would have no meaning for an instruction. -/
inductive Refusal where
  /-- The instruction has no meaning yet. The host's interface asks for this constructor; no arm of
  `exec` and no meaning raises it (log 13). Safe. -/
  | notModelled (mnemonic : String)
deriving DecidableEq, Repr

/-- MouseState with every register zero (R54). -/
def MouseState.zero : MouseState := { my := 0, mx := 0, mstat := 0, mraw := 0 }

/-- CSR = 0x00 (R54). -/
def Csr.zero : Csr := { initd := false, brandv := false, errs := false, err := 0 }

/-- The machine right after reset (R54, R270): every register zero. The model's own fields are empty
(log 15). -/
def State.reset : State :=
  { pad1 := 0, pad2 := 0, mouse1 := .zero, mouse2 := .zero, brand := 0, res := 0, cmd := 0,
    csr := .zero, pout := 0, pdir := 0, fpos := 0,
    trace := [], past := [], levels0 := [], levels1 := [], draws := 0, inbox := [],
    readData := [] }

end Sys2Proof.Machine
end

