-- ==== Sys2Proof/Machine/Flags.lean ====
section
/-! DEFINITION. The flag and status computations: error codes, the CSR byte, the compact mouse
status, and the frame-position tracker FPOS. -/

namespace Sys2Proof.Machine

/-- The outcome code CSR.ERR holds for an error (spec/60_exceptions.md R241). -/
def errorCode : CmdError → BitVec 3
  | .illop => 1
  | .rsvd => 2
  | .badsel => 3
  | .notinit => 4
  | .seq => 5

/-- The byte HostRead(0x02) returns (spec/10_state.md R42): bit 7 and IEN (bit 1) are hardwired 0. -/
def Csr.toByte (c : Csr) : Byte :=
  0#1 ++ (c.err ++ (BitVec.ofBool c.errs ++ (BitVec.ofBool c.brandv
    ++ (0#1 ++ BitVec.ofBool c.initd))))

/-- MSTAT from the two deltas (R36): bit 0 is YNZ, bit 1 is XNZ, bits 7:2 are 0. -/
def mouseStatus (my mx : Byte) : Byte :=
  0#6 ++ (BitVec.ofBool (decide (mx ≠ 0)) ++ BitVec.ofBool (decide (my ≠ 0)))

/-- FPOS.V: the peripheral's position is known (R48). -/
def fposValid (f : Byte) : Bool := f.getLsbD 7

/-- FPOS.CNT: clock pulses since the last latch pulse, saturating at 127 (R48). -/
def fposCount (f : Byte) : BitVec 7 := f.extractLsb' 0 7

/-- FPOS with the position unknown: after reset, INIT and SETSENS (R49). -/
def fposUnknown : Byte := 0x00

/-- FPOS after a LATCH_PULSE: V = 1, CNT = 0 (R49). -/
def fposLatched : Byte := 0x80

/-- FPOS after a CLOCK_PULSE (R49): CNT advances while V = 1 and CNT is below 127. -/
def fposClocked (f : Byte) : Byte :=
  if fposValid f = true ∧ (fposCount f).toNat < 127 then f + 1 else f

/-- FPOS straight after a pad frame: V = 1, CNT = 15 (spec/41_frame_reader.md R167). RDMOUSE is in
sequence only here (spec/43_mouse_decoder.md R197). -/
def fposAfterFrame : Byte := 0x8F

end Sys2Proof.Machine
end

