-- ==== Sys2Proof/Machine/Operands.lean ====
section
/-! DEFINITION. Ports and lines, the active-low accumulators, the sign-magnitude decode, the device
class, the brand class and the buttons of a pad mask. -/

namespace Sys2Proof.Machine

/-- `line(p)`: the data line of a port (spec/10_state.md R47). -/
def lineOfPort : Port → Line
  | .p1 => .l0
  | .p2 => .l1

/-- The next `n` raw levels of a data line with nothing attached, NODEV_LEVEL being the argument (spec/00_scope.md
R9, spec/44_device_identifier.md R213): an environment parameter, not the block's (log 16). -/
def noDeviceLevels (nodevLevel : Bool) (n : Nat) : List Bool := List.replicate n nodevLevel

/-- `not1(r)`: the logical bit of a raw level; the data lines are active-low
(spec/41_frame_reader.md R163). -/
def logicalBit (raw : Bool) : Bool := !raw

/-- The frame accumulation (R161, R162): shift right, the new logical bit enters at bit 15. -/
def shiftIntoMask (m : Word) (raw : Bool) : Word :=
  (m >>> 1) ||| ((BitVec.ofBool (logicalBit raw)).setWidth 16 <<< 15)

/-- The READ8 accumulation (spec/43_mouse_decoder.md R191): shift left, the new logical bit enters at
bit 0, the result is truncated to 8 bits. -/
def shiftIntoByte (acc : Byte) (raw : Bool) : Byte :=
  (acc <<< 1) ||| (BitVec.ofBool (logicalBit raw)).setWidth 8

/-- The sign-magnitude decode (R192): bit 7 is the sign, bits 6:0 the magnitude. -/
def smdec (r : Byte) : Int :=
  if r.getLsbD 7 then -((r.extractLsb' 0 7).toNat : Int) else (r.toNat : Int)

/-- The 8-bit two's-complement register pattern of a decoded delta: `smdec(r) mod 256` (R192). -/
def deltaRegister (r : Byte) : Byte := BitVec.ofInt 8 (smdec r)

/-- DeviceClass (spec/10_state.md R41): never stored. -/
inductive DeviceClass where
  | none
  | pad
  | mouse
deriving DecidableEq, Repr

/-- The code CLASSIFY returns for a class (R41). -/
def classCode : DeviceClass → Word
  | .none => 0
  | .pad => 1
  | .mouse => 2

/-- The device-id nibble, mask bits 15:12 (spec/42_pad_decoder.md R185). -/
def idNibble (m : Word) : BitVec 4 := m.extractLsb' 12 4

/-- The device class of a pad mask (spec/44_device_identifier.md R211). -/
def cls (m : Word) : DeviceClass :=
  if idNibble m = 0b0000 then .pad
  else if idNibble m = 0b1000 then .mouse
  else .none

/-- The vendor a brand byte stands for; the names are the spec's labels (R214). -/
inductive BrandClass where
  | vendorA
  | vendorB
  | unrecognized
deriving DecidableEq, Repr

/-- `brandClass(b)` (R214). The host applies it to BRAND; the block does not. -/
def brandClass (b : Byte) : BrandClass :=
  if b = 0x00 then .vendorA else if b = 0x80 then .vendorB else .unrecognized

/-- The named buttons of a pad frame (spec/42_pad_decoder.md R180). -/
inductive Button where
  | b | y | select | start | up | down | left | right | a | x | l | r
deriving DecidableEq, Repr

/-- `pos(b)`: the frame position, and so the mask bit, of a button (R180). -/
def buttonPosition : Button → Nat
  | .b => 0
  | .y => 1
  | .select => 2
  | .start => 3
  | .up => 4
  | .down => 5
  | .left => 6
  | .right => 7
  | .a => 8
  | .x => 9
  | .l => 10
  | .r => 11

/-- Whether a mask shows a button pressed: `PAD[p][pos(b)] = 1` (R181). -/
def pressed (mask : Word) (button : Button) : Bool := mask.getLsbD (buttonPosition button)

end Sys2Proof.Machine
end

