-- ==== Sys2Proof/Machine/Ops.lean ====
section
/-! DEFINITION. The named operations over the state: access by port, the primitives of
spec/00_scope.md R17, the pulses, the frame reader, READ8, the refusal of a command (the block's whole
'exception', spec/60_exceptions.md R244), the success epilogue (R243) and reset (R270). -/

namespace Sys2Proof.Machine

/-! ### Access by port -/

/-- `PAD[p]` (spec/10_state.md R33). -/
def State.pad (s : State) : Port → Word
  | .p1 => s.pad1
  | .p2 => s.pad2

/-- MouseState of port `p` (R35–R38). -/
def State.mouse (s : State) : Port → MouseState
  | .p1 => s.mouse1
  | .p2 => s.mouse2

/-- Writes MouseState of port `p` and leaves the other port's alone (R38). -/
def setMouse (p : Port) (m : MouseState) (s : State) : State :=
  match p with
  | .p1 => { s with mouse1 := m }
  | .p2 => { s with mouse2 := m }

/-- The two masks of one frame: `m1` is line 0's (port 1), `m2` line 1's (port 2) (R34). -/
structure Masks where
  m1 : Word
  m2 : Word
deriving DecidableEq, Repr

/-- The mask of port `p`. -/
def Masks.of (m : Masks) : Port → Word
  | .p1 => m.m1
  | .p2 => m.m2

/-- Both masks zero, where FRAME16 starts (spec/41_frame_reader.md R161). -/
def Masks.zero : Masks := { m1 := 0, m2 := 0 }

/-- Writes PAD[1] and PAD[2] together (R34). -/
def setPads (m : Masks) (s : State) : State := { s with pad1 := m.m1, pad2 := m.m2 }

/-- Writes RES (R40). -/
def setRes (v : Word) (s : State) : State := { s with res := v }

/-- Writes FPOS (R49). -/
def setFpos (f : Byte) (s : State) : State := { s with fpos := f }

/-! ### The primitives of R17 -/

/-- Appends an event to the trace of the running transaction. -/
def emit (e : Event) (s : State) : State := { s with trace := s.trace ++ [e] }

/-- `PortWrite(v)`. -/
def portWrite (v : Byte) (s : State) : State := emit (.w v) { s with pout := v }

/-- `DirWrite(m)`. -/
def dirWrite (m : Byte) (s : State) : State := emit (.p m) { s with pdir := m }

/-- `Delay(k)`: a trace event and nothing else (R14). -/
def delay (k : Delay) (s : State) : State := emit (.d k) s

/-- The levels the environment has ready on a line. -/
def State.levels (s : State) : Line → List Bool
  | .l0 => s.levels0
  | .l1 => s.levels1

/-- The raw level `Sample(l)` returns in state `s`: a draw of the environment (R12), taken from the
answers it has ready on that line, else free (log 2). -/
def rawLevel (l : Line) (s : State) : Bool :=
  match s.levels l with
  | b :: _ => b
  | [] => Config.smp s.draws (s.past ++ s.trace ++ [.s l]) l

/-- The state after `Sample(l)`: the event is appended and the draw is used up; no register changes
(R81). -/
def afterSample (l : Line) (s : State) : State :=
  match l with
  | .l0 => emit (.s .l0) { s with levels0 := s.levels0.drop 1, draws := s.draws + 1 }
  | .l1 => emit (.s .l1) { s with levels1 := s.levels1.drop 1, draws := s.draws + 1 }

/-- The level the block drives on line `j` of the port: `POUT[j]` while `PDIR[j] = 1`, nothing while
the line is an input (spec/10_state.md R45–R47). -/
def drivenLevel (s : State) (j : Fin 8) : Option Bool :=
  if s.pdir.getLsbD j then some (s.pout.getLsbD j) else none

/-! ### Pulses (spec/40_port_driver.md R132, R134) -/

/-- LATCH_PULSE. -/
def latchPulse (s : State) : State := setFpos fposLatched (portWrite 0x08 (portWrite 0x0C s))

/-- CLOCK_PULSE. -/
def clockPulse (s : State) : State :=
  setFpos (fposClocked s.fpos) (portWrite 0x08 (portWrite 0x00 s))

/-- `repeat n times`. -/
def times : Nat → (State → State) → State → State
  | 0, _, s => s
  | n + 1, f, s => times n f (f s)

/-! ### The frame reader (spec/41_frame_reader.md R160, R161) -/

/-- SAMPLE_BOTH: line 0 first, then line 1; each logical bit enters its own mask. -/
def sampleBoth (m : Masks) (s : State) : Masks × State :=
  let s1 := afterSample .l0 s
  ({ m1 := shiftIntoMask m.m1 (rawLevel .l0 s), m2 := shiftIntoMask m.m2 (rawLevel .l1 s1) },
   afterSample .l1 s1)

/-- `repeat n times: CLOCK_PULSE; SAMPLE_BOTH`. -/
def clockAndSample : Nat → Masks → State → Masks × State
  | 0, m, s => (m, s)
  | n + 1, m, s =>
    let r := sampleBoth m (clockPulse s)
    clockAndSample n r.1 r.2

/-- `readFrame(bitCount, lines)` on both lines (R160): one latch pulse, a sample of each line, then
`bitCount - 1` times a clock pulse and a sample of each line. With fewer than 16 bits, frame bit k
ends at mask bit 16 - bitCount + k (R169). DESIGN CHOICE (unsafe; log 21): the spec does not say what
`bitCount = 0` does; here `0 - 1` is 0, so `readFrame 0` is `readFrame 1`. No command reads it. -/
def readFrame (bitCount : Nat) (s : State) : Masks × State :=
  let r := sampleBoth Masks.zero (latchPulse s)
  clockAndSample (bitCount - 1) r.1 r.2

/-- FRAME16 (R161), the only instance the block's commands use. -/
def frame16 (s : State) : Masks × State := readFrame 16 s

/-! ### One mouse byte (spec/43_mouse_decoder.md R191) -/

/-- `repeat n times: CLOCK_PULSE; Delay(SETTLE); sample line l` into the accumulator. -/
def readBits (l : Line) : Nat → Byte → State → Byte × State
  | 0, acc, s => (acc, s)
  | n + 1, acc, s =>
    let s1 := delay .settle (clockPulse s)
    readBits l n (shiftIntoByte acc (rawLevel l s1)) (afterSample l s1)

/-- READ8(l). -/
def read8 (l : Line) (s : State) : Byte × State := readBits l 8 0 s

/-! ### Issue, refusal and success of a command (spec/60_exceptions.md R242–R244) -/

/-- Begins a transaction: its trace is empty (spec/00_scope.md R13). -/
def openTransaction (s : State) : State := { s with past := s.past ++ s.trace, trace := [] }

/-- A command that fails validation (R244): CSR.ERR gets the code, CSR.ERRS is set, the trace is empty,
and nothing else changes. There is no trap and no return (R247, R248). -/
def refuseCommand (e : CmdError) (s : State) : State :=
  openTransaction { s with csr := { s.csr with err := errorCode e, errs := true } }

/-- The success epilogue `CSR.ERR <- 0` (R243). -/
def succeed (s : State) : State := { s with csr := { s.csr with err := 0 } }

/-- No check that depends on state (INIT, FLUSH, SAMPLE, WAIT: R242). -/
def checkNone (_ : State) : Option CmdError := none

/-- The check of a command that drives the latch or clock line (R242). -/
def checkInit (s : State) : Option CmdError := if s.csr.initd then none else some .notinit

/-- The checks of RDMOUSE, NOTINIT before SEQ (R242). -/
def checkSeq (s : State) : Option CmdError :=
  if s.csr.initd then (if s.fpos = fposAfterFrame then none else some .seq) else some .notinit

/-- Runs a command: its checks first, before any effect; then its body and the success epilogue
(R242, R243, R246). -/
def runCommand (check : State → Option CmdError) (body : State → State) (s : State) :
    Host.Outcome State Fault Refusal :=
  match check s with
  | some e => .next (refuseCommand e s)
  | none => .next (succeed (body (openTransaction s)))

/-! ### Reset (spec/70_reset_and_hazards.md R270; spec/60_exceptions.md R253) -/

/-- The reset input: every register takes its reset value and no event occurs (R270). What is not the
block's stays: the environment's answers, the held host accesses, the answers given (log 10). -/
def resetBlock (s : State) : State :=
  { State.reset with
    past := s.past ++ s.trace, trace := [], levels0 := s.levels0, levels1 := s.levels1,
    draws := s.draws, inbox := s.inbox, readData := s.readData }

/-- A reset after `n` events of the transaction that would lead from `s` to `t` (R253): no further
event occurs, the events before it stay, and every register takes its reset value. -/
def resetDuring (n : Nat) (s t : State) : State :=
  let done := t.trace.take n
  { State.reset with
    past := t.past, trace := done,
    levels0 := s.levels0.drop (samplesOf .l0 done), levels1 := s.levels1.drop (samplesOf .l1 done),
    draws := s.draws + samples done, inbox := s.inbox, readData := s.readData }

end Sys2Proof.Machine
end

