-- ==== Sys2Proof/Machine/MouseDecoder.lean ====
section
/-! DEFINITION. The mouse decoder's command RDMOUSE (spec/43_mouse_decoder.md R194). -/

namespace Sys2Proof.Machine

/-- MouseState from the two raw bytes and the mask PAD[p] (R192, R194, R196; MRAW: spec/10_state.md R37). -/
def decodeMouse (ry rx : Byte) (mask : Word) : MouseState :=
  { my := deltaRegister ry, mx := deltaRegister rx,
    mstat := mouseStatus (deltaRegister ry) (deltaRegister rx), mraw := highByte mask }

/-- RDMOUSE after validation (R194), with the raw Y byte, which CLASSIFY needs (R215). The raw bytes
are read from line(p) only, Y first; no latch pulse. -/
def rdmouseBody (p : Port) (s : State) : Byte × State :=
  let y := read8 (lineOfPort p) s
  let x := read8 (lineOfPort p) y.2
  let m := decodeMouse y.1 x.1 (x.2.pad p)
  (y.1, setRes (m.mstat.setWidth 16) (setMouse p m x.2))

/-- RDMOUSE (R194): in sequence only at FPOS = 0x8F (R197). -/
def execRdmouse (p : Port) (s : State) : Host.Outcome State Fault Refusal :=
  runCommand checkSeq (fun s => (rdmouseBody p s).2) s

end Sys2Proof.Machine
end

