-- ==== Sys2Proof/Machine/DeviceIdentifier.lean ====
section
/-! DEFINITION. The device identifier's commands FLUSH and CLASSIFY (spec/44_device_identifier.md). -/

namespace Sys2Proof.Machine

/-- FLUSH after validation, also the first step of CLASSIFY (R210): the cached registers of both ports
and the brand become zero; no line is touched. -/
def flushBody (s : State) : State :=
  { s with pad1 := 0, pad2 := 0, mouse1 := .zero, mouse2 := .zero, brand := 0,
           csr := { s.csr with brandv := false } }

/-- FLUSH (R210): needs no INIT. -/
def execFlush (s : State) : Host.Outcome State Fault Refusal := runCommand checkNone flushBody s

/-- FRAME16 into PAD[1] and PAD[2]. -/
def framePads (s : State) : State :=
  let r := frame16 s
  setPads r.1 r.2

/-- One mouse-frame read inside CLASSIFY (R215): FRAME16, both PADs, then the RDMOUSE body; the raw Y
byte comes with it. -/
def mouseFrame (p : Port) (s : State) : Byte × State := rdmouseBody p (framePads s)

/-- CLASSIFY's probe of a mouse (R215): frame B is discarded, frame C's raw Y byte is the brand (R218). -/
def probeMouse (p : Port) (s : State) : State :=
  let c := mouseFrame p (mouseFrame p s).2
  { c.2 with brand := c.1, csr := { c.2.csr with brandv := true } }

/-- CLASSIFY after validation (R215): the class is decided on frame A alone (R216). -/
def classifyBody (p : Port) (s : State) : State :=
  let a := framePads (flushBody s)
  let c := cls (a.pad p)
  setRes (classCode c) (if c = .mouse then probeMouse p a else a)

/-- CLASSIFY (R215): never SEQ. -/
def execClassify (p : Port) (s : State) : Host.Outcome State Fault Refusal :=
  runCommand checkInit (classifyBody p) s

end Sys2Proof.Machine
end

