-- ==== Sys2Proof/Machine/PadDecoder.lean ====
section
/-! DEFINITION. The pad decoder's command RDPAD (spec/42_pad_decoder.md R182). -/

namespace Sys2Proof.Machine

/-- RDPAD after validation (R182): both masks, every time; the port chooses only what goes to RES. -/
def rdpadBody (p : Port) (s : State) : State :=
  let r := frame16 s
  setRes (r.1.of p) (setPads r.1 r.2)

/-- RDPAD (R182). -/
def execRdpad (p : Port) (s : State) : Host.Outcome State Fault Refusal :=
  runCommand checkInit (rdpadBody p) s

end Sys2Proof.Machine
end

