-- ==== Sys2Proof/Machine/PortDriver.lean ====
section
/-! DEFINITION. The port driver's commands INIT, PLATCH, PCLOCK, SAMPLE and WAIT
(spec/40_port_driver.md). -/

namespace Sys2Proof.Machine

/-- INIT after validation (R136): idle levels into POUT, then the direction mask; FPOS unknown. -/
def initBody (s : State) : State :=
  let s1 := dirWrite 0xFC (portWrite 0x08 s)
  setFpos fposUnknown { s1 with csr := { s1.csr with initd := true } }

/-- INIT (R136): never NOTINIT or SEQ. -/
def execInit (s : State) : Host.Outcome State Fault Refusal := runCommand checkNone initBody s

/-- PLATCH (R138): one LATCH_PULSE. -/
def execPlatch (s : State) : Host.Outcome State Fault Refusal := runCommand checkInit latchPulse s

/-- PCLOCK (R139): one CLOCK_PULSE. -/
def execPclock (s : State) : Host.Outcome State Fault Refusal := runCommand checkInit clockPulse s

/-- SAMPLE after validation (R140): RES gets the raw level, not inverted (R141). -/
def sampleBody (l : Line) (s : State) : State :=
  setRes ((BitVec.ofBool (rawLevel l s)).setWidth 16) (afterSample l s)

/-- SAMPLE (R140): needs no INIT. -/
def execSample (l : Line) (s : State) : Host.Outcome State Fault Refusal :=
  runCommand checkNone (sampleBody l) s

/-- WAIT (R142): one delay event and no change of state. -/
def execWait (n : Byte) (s : State) : Host.Outcome State Fault Refusal :=
  runCommand checkNone (delay (.wait n)) s

end Sys2Proof.Machine
end

