-- ==== Sys2Proof/Machine/Sensitivity.lean ====
section
/-! DEFINITION. The sensitivity initializer SETSENS (spec/45_sensitivity.md R231). -/

namespace Sys2Proof.Machine

/-- SETSENS after validation (R231): the pulse sequence; FPOS unknown; RES is the fixed status. -/
def setsensBody (s : State) : State :=
  let s1 := times 15 (fun s => delay .settle (clockPulse s)) (latchPulse s)
  let s2 := times 31 (fun s => delay .sensGap (latchPulse s)) (delay .sensLong s1)
  setRes (Config.sensStatus.setWidth 16) (setFpos fposUnknown s2)

/-- SETSENS (R231): the port and the level are read by nothing (R232, R233). -/
def execSetsens (_p : Port) (_level : Byte) (s : State) : Host.Outcome State Fault Refusal :=
  runCommand checkInit setsensBody s

end Sys2Proof.Machine
end

