-- ==== Sys2Proof/Machine/Dispatch.lean ====
section
/-! DEFINITION. The dispatch: one arm per command. -/

namespace Sys2Proof.Machine

/-- The transaction of a command: its checks that depend on state, its body, its epilogue
(spec/00_scope.md R13, spec/60_exceptions.md R242–R244). -/
def exec (i : Instr) (s : State) : Host.Outcome State Fault Refusal :=
  match i with
  | .init => Sys2Proof.Machine.execInit s
  | .flush => Sys2Proof.Machine.execFlush s
  | .rdpad p => Sys2Proof.Machine.execRdpad p s
  | .rdmouse p => Sys2Proof.Machine.execRdmouse p s
  | .classify p => Sys2Proof.Machine.execClassify p s
  | .setsens p level => Sys2Proof.Machine.execSetsens p level s
  | .platch => Sys2Proof.Machine.execPlatch s
  | .pclock => Sys2Proof.Machine.execPclock s
  | .sample l => Sys2Proof.Machine.execSample l s
  | .wait cycles => Sys2Proof.Machine.execWait cycles s

end Sys2Proof.Machine
end

