-- ==== Sys2Proof/Machine/HostInterface.lean ====
section
/-! DEFINITION. The host interface (spec/20_memory.md R71–R75): the register map, command issue, the
inputs of the block, and the host accesses that run a program (spec/30_encoding.md R113). -/

namespace Sys2Proof.Machine

/-- The byte at an offset of the register map (R71, R77); reserved offsets read 0 (R72). -/
def readRegister (s : State) (off : Offset) : Byte :=
  match off.toNat with
  | 0x00 => lowByte s.cmd
  | 0x01 => highByte s.cmd
  | 0x02 => s.csr.toByte
  | 0x03 => lowByte s.res
  | 0x04 => highByte s.res
  | 0x05 => lowByte s.pad1
  | 0x06 => highByte s.pad1
  | 0x07 => lowByte s.pad2
  | 0x08 => highByte s.pad2
  | 0x09 => s.mouse1.my
  | 0x0A => s.mouse1.mx
  | 0x0B => s.mouse1.mstat
  | 0x0C => s.mouse1.mraw
  | 0x0D => s.mouse2.my
  | 0x0E => s.mouse2.mx
  | 0x0F => s.mouse2.mstat
  | 0x10 => s.mouse2.mraw
  | 0x11 => s.brand
  | 0x12 => s.fpos
  | 0x13 => s.pdir
  | 0x14 => s.pout
  | _ => 0

/-- `HostRead(off)`: answers the byte and changes nothing (R74). -/
def hostRead (off : Offset) (s : State) : State :=
  { s with readData := s.readData ++ [readRegister s off] }

/-- `issue(CMD)` (R73): the command word is read from CMD once (R88), decoded and run; a word that
decodes to no command is refused (spec/60_exceptions.md R242, R244). -/
def issue (s : State) : Host.Outcome State Fault Refusal :=
  match decode s.cmd with
  | .ok i => exec i s
  | .error e => .next (refuseCommand e s)

/-- `HostWrite(off, v)` (R73): CMDL, CMDH and nothing else is writable (R72, R74). -/
def hostWrite (off : Offset) (v : Byte) (s : State) : Host.Outcome State Fault Refusal :=
  if off = 0x00 then .next { s with cmd := joinBytes (highByte s.cmd) v }
  else if off = 0x01 then issue { s with cmd := joinBytes v (lowByte s.cmd) }
  else .next s

/-- A CMDH write whose command a reset cuts after `n` events (spec/60_exceptions.md R253). -/
def hostWriteThenReset (v : Byte) (n : Nat) (s : State) : Host.Outcome State Fault Refusal :=
  match hostWrite 0x01 v s with
  | .next t => .next (resetDuring n s t)
  | .fault r => .fault r
  | .refused r => .refused r

/-- The effect of one input. -/
def takeInput (i : Input) (s : State) : Host.Outcome State Fault Refusal :=
  match i with
  | .read off => .next (hostRead off s)
  | .write off v => hostWrite off v s
  | .reset => .next (resetBlock s)
  | .issueThenReset v n => hostWriteThenReset v n s

/-- One step: the oldest input is taken; without one the block is idle and keeps its state (R75, R84;
spec/60_exceptions.md R261; log 11). -/
def nextInput (s : State) : Host.Outcome State Fault Refusal :=
  match s.inbox with
  | [] => .next s
  | i :: rest => takeInput i { s with inbox := rest }

/-- The two accesses that issue a command word (spec/30_encoding.md R113). -/
def issueAccesses (w : Word) : List Input :=
  [.write 0x00 (lowByte w), .write 0x01 (highByte w)]

/-- The host accesses that run a program, a list of words (R113). -/
def programAccesses (ws : List Word) : List Input := (ws.map issueAccesses).flatten

/-- The host's own address of an offset: BLOCK_BASE plus the offset (R82; log 7). -/
def hostAddress (off : Offset) : Nat := Config.blockBase + off.toNat

/-- `s` with a command word about to be issued: its low byte is in CMDL and the CMDH write of its high
byte is the next input (R73; log 18). -/
def presentWord (w : Word) (s : State) : State :=
  { s with cmd := joinBytes (highByte s.cmd) (lowByte w),
           inbox := .write 0x01 (highByte w) :: s.inbox }

end Sys2Proof.Machine
end

