-- ==== Sys2Proof/Machine/Step.lean ====
section
/-! DEFINITION. The step of the machine and the state in which the next step runs a given word. -/

namespace Sys2Proof.Machine

/-- One step: one input of the host or of reset, with the whole transaction it causes
(spec/00_scope.md R13, spec/20_memory.md R84). -/
def step (s : State) : Host.Outcome State Fault Refusal := nextInput s

/-- `s` with the low `nbits` bits of `w` as the command word the very next step issues (log 18). -/
def State.withFetchWord (s : State) (nbits w : Nat) : State :=
  presentWord (BitVec.ofNat 16 (w % 2 ^ nbits)) s

end Sys2Proof.Machine
end

