-- ==== Sys2Proof/Machine/Assembler.lean ====
section
/-! DEFINITION. The assembler's text (spec/30_encoding.md R111, R112): one command per line, `;` starts a
comment, mnemonics in upper case. Text is a list of characters; a line is cut into tokens, read as an
`Asm` term, checked and assembled. What R111 leaves to the reader (blanks, digit forms) is log 17. -/

namespace Sys2Proof.Machine

/-- Characters that separate tokens. -/
def isBlank (c : Char) : Bool := c = ' ' || c = '\t' || c = '\r'

/-- The token gathered so far, if it holds anything; its characters are kept in reverse. -/
def closeToken : List Char → List (List Char)
  | [] => []
  | c :: cs => [(c :: cs).reverse]

/-- Cuts a line into tokens: blanks separate, a comma is a token of its own, `;` ends the line. -/
def tokens : List Char → List Char → List (List Char)
  | cur, [] => closeToken cur
  | cur, c :: cs =>
    if c = ';' then closeToken cur
    else if isBlank c then closeToken cur ++ tokens [] cs
    else if c = ',' then closeToken cur ++ [','] :: tokens [] cs
    else tokens (c :: cur) cs

/-- The value of a decimal digit. -/
def decDigit (c : Char) : Option Nat :=
  if '0' ≤ c ∧ c ≤ '9' then some (c.toNat - '0'.toNat) else none

/-- The value of a hexadecimal digit, either case. -/
def hexDigit (c : Char) : Option Nat :=
  if '0' ≤ c ∧ c ≤ '9' then some (c.toNat - '0'.toNat)
  else if 'a' ≤ c ∧ c ≤ 'f' then some (c.toNat - 'a'.toNat + 10)
  else if 'A' ≤ c ∧ c ≤ 'F' then some (c.toNat - 'A'.toNat + 10)
  else none

/-- The value of a string of digits in a base, most significant first. -/
def digits (digit : Char → Option Nat) (base : Nat) : Nat → List Char → Option Nat
  | acc, [] => some acc
  | acc, c :: cs =>
    match digit c with
    | some d => digits digit base (acc * base + d) cs
    | none => none

/-- An unsigned decimal number, at least one digit. -/
def decimal : List Char → Option Nat
  | [] => none
  | c :: cs => digits decDigit 10 0 (c :: cs)

/-- The digits of a hexadecimal number, at least one. -/
def hexadecimal : List Char → Option Nat
  | [] => none
  | c :: cs => digits hexDigit 16 0 (c :: cs)

/-- An immediate: decimal, or hexadecimal after `0x`. -/
def immediate : List Char → Option Nat
  | '0' :: 'x' :: cs => hexadecimal cs
  | cs => decimal cs

/-- An operand `pN`. -/
def portOperand : List Char → Option Nat
  | 'p' :: cs => decimal cs
  | _ => none

/-- An operand `lN`. -/
def lineOperand : List Char → Option Nat
  | 'l' :: cs => decimal cs
  | _ => none

/-- A raw word `0xWWWW`. -/
def rawOperand : List Char → Option Nat
  | '0' :: 'x' :: cs => hexadecimal cs
  | _ => none

/-- A command without operands (R111, R112). -/
def parseBare (m : List Char) : Option Asm :=
  if m = "INIT".toList then some .init
  else if m = "FLUSH".toList then some .flush
  else if m = "PLATCH".toList then some .platch
  else if m = "PCLOCK".toList then some .pclock
  else if m = "NOP".toList then some .nop
  else if m = "READPADS".toList then some .readpads
  else none

/-- A command with one operand (R111, R112). -/
def parseOne (m a : List Char) : Option Asm :=
  if m = "RDPAD".toList then (portOperand a).map .rdpad
  else if m = "RDMOUSE".toList then (portOperand a).map .rdmouse
  else if m = "CLASSIFY".toList then (portOperand a).map .classify
  else if m = "SAMPLE".toList then (lineOperand a).map .sample
  else if m = "WAIT".toList then (immediate a).map .wait
  else if m = ".cmd".toList then (rawOperand a).map .raw
  else if m = "MFRAME".toList then (portOperand a).map .mframe
  else none

/-- A command with two operands (R111). -/
def parseTwo (m a b : List Char) : Option Asm :=
  if m = "SETSENS".toList then
    match portOperand a, immediate b with
    | some p, some v => some (.setsens p v)
    | _, _ => none
  else none

/-- The command a line holds: `some none` for a line with none (blank or comment only), `none` for a
line that is no command. -/
def parseLine (text : List Char) : Option (Option Asm) :=
  match tokens [] text with
  | [] => some none
  | [m] => (parseBare m).map some
  | [m, a] => (parseOne m a).map some
  | [m, a, c, b] => if c = [','] then (parseTwo m a b).map some else none
  | _ => none

/-- The words of a line of source; `none` where it is not legal source. -/
def assembleLine (text : List Char) : Option (List Word) :=
  match parseLine text with
  | none => none
  | some none => some []
  | some (some a) => assemble a

/-- The words of a source text, given as its lines. -/
def assembleText : List (List Char) → Option (List Word)
  | [] => some []
  | line :: rest =>
    match assembleLine line, assembleText rest with
    | some ws, some ws' => some (ws ++ ws')
    | _, _ => none

end Sys2Proof.Machine
end

