-- ==== Sys2Proof/Safety.lean ====
section
/-! DEFINITION. What a good state and a good run are, in the terms statements use. -/

namespace Sys2Proof.Machine

/-- The lines between transactions (spec/40_port_driver.md R131, R137; spec/10_state.md R45, R46):
before INIT nothing is driven and POUT is as reset left it; after INIT lines 2–7 are outputs at the idle
level, clock high and latch low. -/
def linesAtRest (s : State) : Prop :=
  if s.csr.initd then s.pout = 0x08 ∧ s.pdir = 0xFC else s.pout = 0x00 ∧ s.pdir = 0x00

/-- CSR.ERR is a code the table of spec/60_exceptions.md R241 gives (6 and 7 are never written), and an
error leaves the sticky bit set (R244). -/
def errorRecorded (s : State) : Prop :=
  s.csr.err.toNat ≤ 5 ∧ (s.csr.err ≠ 0 → s.csr.errs = true)

/-- FPOS is 0x00 or has V = 1, and is 0x00 until INIT has run (R48, R49). -/
def positionKnownOrZero (s : State) : Prop :=
  (s.fpos = 0x00 ∨ fposValid s.fpos = true) ∧ (s.csr.initd = false → s.fpos = 0x00)

/-- MouseState of one port (R35, R36): no delta is -128, and MSTAT tells which deltas are non-zero. -/
def mouseConsistent (m : MouseState) : Prop :=
  m.my ≠ 0x80 ∧ m.mx ≠ 0x80 ∧ m.mstat = mouseStatus m.my m.mx

/-- BRAND is zero while BRANDV is 0 (R39). -/
def brandConsistent (s : State) : Prop := s.csr.brandv = false → s.brand = 0x00

/-- Nothing has been read from a peripheral before INIT has run (spec/70_reset_and_hazards.md R273): the
cached registers are zero. -/
def nothingReadBeforeInit (s : State) : Prop :=
  s.csr.initd = false →
    s.pad1 = 0 ∧ s.pad2 = 0 ∧ s.mouse1 = .zero ∧ s.mouse2 = .zero ∧ s.csr.brandv = false

/-- The invariant of the block between transactions. -/
def State.Inv (s : State) : Prop :=
  linesAtRest s ∧ errorRecorded s ∧ positionKnownOrZero s ∧ mouseConsistent s.mouse1
    ∧ mouseConsistent s.mouse2 ∧ brandConsistent s ∧ nothingReadBeforeInit s

/-- No command has been refused since reset (spec/60_exceptions.md R249). -/
def noCommandRefused (s : State) : Prop := s.csr.errs = false

end Sys2Proof.Machine
end

