-- ==== Sys2Proof/Certificates/Slice0/Obligations.lean ====
section
/-! DEFINITION. The statements about the model, each taken from the numbered rules of spec/. First the
rules' own terms (namespace `Sys2Proof.Claims`), written independently of the model's operations; then
one `def Obligations.<Name> : Prop` each. A state `s` is any state at all unless a premise says more. -/

namespace Sys2Proof.Claims

open Machine

/-! ### Fields of a command word as numbers (spec/30_encoding.md R101) -/

/-- OP. -/
def op (c : Word) : Nat := c.toNat / 4096

/-- RSV. -/
def rsv (c : Word) : Nat := c.toNat / 1024 % 4

/-- SEL. -/
def sel (c : Word) : Nat := c.toNat / 256 % 4

/-- IMM8. -/
def imm (c : Word) : Nat := c.toNat % 256

/-- How a format-N word with a command's opcode decodes (R102, R108). -/
def formatN (c : Word) (i : Instr) : Except CmdError Instr :=
  if c.toNat % 4096 = 0 then .ok i else .error .rsvd

/-- How a format-P word with a command's opcode decodes (R102, R103, R108). -/
def formatP (c : Word) (i : Port → Instr) : Except CmdError Instr :=
  if rsv c ≠ 0 ∨ imm c ≠ 0 then .error .rsvd
  else if sel c = 0 then .ok (i .p1) else if sel c = 1 then .ok (i .p2) else .error .badsel

/-! ### Outcomes (spec/60_exceptions.md R241–R244) -/

/-- The commands that drive the latch or clock line (R241, NOTINIT). -/
def drivesLines : Instr → Bool
  | .rdpad _ => true
  | .rdmouse _ => true
  | .classify _ => true
  | .setsens _ _ => true
  | .platch => true
  | .pclock => true
  | .init => false
  | .flush => false
  | .sample _ => false
  | .wait _ => false

/-- Whether a command is an RDMOUSE. -/
def isRdmouse : Instr → Bool
  | .rdmouse _ => true
  | .init => false
  | .flush => false
  | .rdpad _ => false
  | .classify _ => false
  | .setsens _ _ => false
  | .platch => false
  | .pclock => false
  | .sample _ => false
  | .wait _ => false

/-- The outcome code validation gives a decoded command (R242): NOTINIT before SEQ. -/
def outcomeCode (i : Instr) (s : State) : BitVec 3 :=
  if drivesLines i = true ∧ s.csr.initd = false then 4
  else if isRdmouse i = true ∧ s.fpos ≠ 0x8F then 5
  else 0

/-- The outcome code of any issued word (R242), written over the word's bits: the first check that fails
gives the error. -/
def validate (c : Word) (s : State) : BitVec 3 :=
  if op c = 0 ∨ 0xB ≤ op c then 1
  else if (op c = 1 ∨ op c = 2 ∨ op c = 7 ∨ op c = 8) ∧ c.toNat % 4096 ≠ 0 then 2
  else if (op c = 3 ∨ op c = 4 ∨ op c = 5 ∨ op c = 9) ∧ (rsv c ≠ 0 ∨ imm c ≠ 0) then 2
  else if op c = 6 ∧ rsv c ≠ 0 then 2
  else if op c = 0xA ∧ c.toNat / 256 % 16 ≠ 0 then 2
  else if (op c = 3 ∨ op c = 4 ∨ op c = 5 ∨ op c = 6 ∨ op c = 9) ∧ 2 ≤ sel c then 3
  else if (op c = 3 ∨ op c = 4 ∨ op c = 5 ∨ op c = 6 ∨ op c = 7 ∨ op c = 8) ∧ s.csr.initd = false then 4
  else if op c = 4 ∧ s.fpos ≠ 0x8F then 5
  else 0

/-- The state after a refused command (R244): the code, the sticky bit, an empty trace. -/
def refused (code : BitVec 3) (s : State) : State :=
  { s with csr := { s.csr with err := code, errs := true }, past := s.past ++ s.trace, trace := [] }

/-! ### Samples (spec/00_scope.md R12) -/

/-- The number of a data line. -/
def lineNumber : Line → Nat
  | .l0 => 0
  | .l1 => 1

/-- The data line of a port (spec/10_state.md R47). -/
def dataLine : Port → Line
  | .p1 => .l0
  | .p2 => .l1

/-- The raw level that event number `e` of a transaction with trace `T`, begun in `s`, samples on line
`l`: the answer the environment has ready there, else the oracle applied to the trace so far. -/
def answer (s : State) (T : List Event) (e : Nat) (l : Line) : Bool :=
  (s.levels l)[samplesOf l (T.take e)]?.getD
    (Config.smp (s.draws + samples (T.take e)) (s.past ++ s.trace ++ T.take (e + 1)) l)

/-- `m` is line `l`'s mask of the FRAME16 whose events begin at number `base` of `T`: frame bit k is
active-low and lands in mask bit k (spec/41_frame_reader.md R161–R163). -/
def maskRead (m : Word) (s : State) (T : List Event) (base : Nat) (l : Line) : Prop :=
  ∀ k, k < 16 → m.getLsbD k = !answer s T (base + 4 * k + 2 + lineNumber l) l

/-- Both masks of that FRAME16. -/
def frameRead (m : Masks) (s : State) (T : List Event) (base : Nat) : Prop :=
  maskRead m.m1 s T base .l0 ∧ maskRead m.m2 s T base .l1

/-- `b` is the byte of the READ8 on line `l` whose events begin at number `base` of `T`: most
significant bit first, active-low (spec/43_mouse_decoder.md R191). -/
def byteRead (b : Byte) (s : State) (T : List Event) (base : Nat) (l : Line) : Prop :=
  ∀ j, j < 8 → b.getLsbD (7 - j) = !answer s T (base + 4 * j + 3) l

/-! ### Buttons (spec/42_pad_decoder.md R180) -/

/-- The frame position of each button, as R180's table lists them. -/
def namedPosition : Button → Nat
  | .b => 0
  | .y => 1
  | .select => 2
  | .start => 3
  | .up => 4
  | .down => 5
  | .left => 6
  | .right => 7
  | .a => 8
  | .x => 9
  | .l => 10
  | .r => 11

/-! ### Mouse bytes (spec/43_mouse_decoder.md R192, R193; spec/10_state.md R36, R37) -/

/-- The register pattern of a sign-magnitude byte: `(0x100 − r[6:0]) & 0xFF` where bit 7 is set, else the
byte. -/
def deltaPattern (r : Byte) : Byte :=
  if r.toNat < 128 then r else BitVec.ofNat 8 (256 - r.toNat % 128)

/-- Bit 0: Y delta non-zero; bit 1: X delta non-zero; bits 7:2 zero. -/
def statusPattern (my mx : Byte) : Byte :=
  BitVec.ofNat 8 ((if my = 0 then 0 else 1) + (if mx = 0 then 0 else 2))

/-- MouseState from the two raw bytes and the port's mask. -/
def mouseFrom (ry rx : Byte) (mask : Word) : MouseState :=
  { my := deltaPattern ry, mx := deltaPattern rx,
    mstat := statusPattern (deltaPattern ry) (deltaPattern rx), mraw := mask.extractLsb' 8 8 }

/-- All four registers of MouseState zero. -/
def mouseZero : MouseState := { my := 0, mx := 0, mstat := 0, mraw := 0 }

/-! ### Traces (spec/41_frame_reader.md R161; spec/43_mouse_decoder.md R194; spec/45_sensitivity.md R231) -/

/-- `n` times the events `es`. -/
def repeated : Nat → List Event → List Event
  | 0, _ => []
  | n + 1, es => es ++ repeated n es

/-- `W(0x0C) W(0x08) S(0) S(1) {W(0x00) W(0x08) S(0) S(1)} × 15`. -/
def frameTrace : List Event :=
  [.w 0x0C, .w 0x08, .s .l0, .s .l1] ++ repeated 15 [.w 0x00, .w 0x08, .s .l0, .s .l1]

/-- `{W(0x00) W(0x08) D(SETTLE) S(l)} × 16`. -/
def mouseTrace (l : Line) : List Event := repeated 16 [.w 0x00, .w 0x08, .d .settle, .s l]

/-- `W(0x0C) W(0x08) {W(0x00) W(0x08) D(SETTLE)}×15 D(SENS_LONG) {W(0x0C) W(0x08) D(SENS_GAP)}×31`. -/
def sensTrace : List Event :=
  [.w 0x0C, .w 0x08] ++ repeated 15 [.w 0x00, .w 0x08, .d .settle] ++ [.d .sensLong]
    ++ repeated 31 [.w 0x0C, .w 0x08, .d .sensGap]

/-- The 320 events of a CLASSIFY that finds a mouse (spec/44_device_identifier.md R215). -/
def mouseProbeTrace (l : Line) : List Event :=
  frameTrace ++ frameTrace ++ mouseTrace l ++ frameTrace ++ mouseTrace l

/-- What R286 of spec/70_reset_and_hazards.md counts; `waits` are the delays of one kind `WAIT(n)`. -/
structure Counts where
  latch : Nat
  clock : Nat
  samples0 : Nat
  samples1 : Nat
  settles : Nat
  longs : Nat
  gaps : Nat
  waits : Nat
  events : Nat
deriving DecidableEq, Repr

/-- The counts of a trace. -/
def counts (n : Byte) (tr : List Event) : Counts :=
  { latch := latchPulses tr, clock := clockPulses tr,
    samples0 := tr.count (.s .l0), samples1 := tr.count (.s .l1),
    settles := tr.count (.d .settle), longs := tr.count (.d .sensLong),
    gaps := tr.count (.d .sensGap), waits := tr.count (.d (.wait n)), events := tr.length }

/-- The table of R286, `found` telling whether CLASSIFY found a mouse. RDMOUSE and the mouse reads of
CLASSIFY sample only their own port's line. -/
def countsOf (i : Instr) (found : Bool) (n : Byte) : Counts :=
  match i with
  | .init => ⟨0, 0, 0, 0, 0, 0, 0, 0, 2⟩
  | .flush => ⟨0, 0, 0, 0, 0, 0, 0, 0, 0⟩
  | .rdpad _ => ⟨1, 15, 16, 16, 0, 0, 0, 0, 64⟩
  | .rdmouse .p1 => ⟨0, 16, 16, 0, 16, 0, 0, 0, 64⟩
  | .rdmouse .p2 => ⟨0, 16, 0, 16, 16, 0, 0, 0, 64⟩
  | .classify .p1 => if found then ⟨3, 77, 80, 48, 32, 0, 0, 0, 320⟩ else ⟨1, 15, 16, 16, 0, 0, 0, 0, 64⟩
  | .classify .p2 => if found then ⟨3, 77, 48, 80, 32, 0, 0, 0, 320⟩ else ⟨1, 15, 16, 16, 0, 0, 0, 0, 64⟩
  | .setsens _ _ => ⟨32, 15, 0, 0, 15, 1, 31, 0, 141⟩
  | .platch => ⟨1, 0, 0, 0, 0, 0, 0, 0, 2⟩
  | .pclock => ⟨0, 1, 0, 0, 0, 0, 0, 0, 2⟩
  | .sample .l0 => ⟨0, 0, 1, 0, 0, 0, 0, 0, 1⟩
  | .sample .l1 => ⟨0, 0, 0, 1, 0, 0, 0, 0, 1⟩
  | .wait m => ⟨0, 0, 0, 0, 0, 0, 0, if m = n then 1 else 0, 1⟩

/-- R288's lower bound for the counts of R286 (with WAIT's own number of units), `found` as there. -/
def leastDuration (T : Timing) (i : Instr) (found : Bool) : NNRat :=
  match i with
  | .init => 0
  | .flush => 0
  | .rdpad _ => 16 * T.tPulse
  | .rdmouse _ => 16 * T.tPulse + 16 * T.tSettle
  | .classify _ => if found then 80 * T.tPulse + 32 * T.tSettle else 16 * T.tPulse
  | .setsens _ _ => 47 * T.tPulse + 15 * T.tSettle + T.tSensLong + 31 * T.tSensGap
  | .platch => T.tPulse
  | .pclock => T.tPulse
  | .sample _ => 0
  | .wait n => (n.toNat : NNRat) * T.tWaitUnit

/-! ### Writers (spec/10_state.md R53) -/

/-- The commands that write PAD[1] and PAD[2]. -/
def writesPads (i : Instr) : Prop := (∃ p, i = .rdpad p) ∨ (∃ p, i = .classify p) ∨ i = .flush

/-- The commands that write MouseState of port `p`; CLASSIFY of either port flushes both. -/
def writesMouse (p : Port) (i : Instr) : Prop :=
  i = .rdmouse p ∨ (∃ q, i = .classify q) ∨ i = .flush

/-- The commands that write BRAND and CSR.BRANDV. -/
def writesBrand (i : Instr) : Prop := (∃ p, i = .classify p) ∨ i = .flush

/-- The commands that write RES. -/
def writesRes (i : Instr) : Prop :=
  (∃ p, i = .rdpad p) ∨ (∃ p, i = .rdmouse p) ∨ (∃ p, i = .classify p) ∨ (∃ p v, i = .setsens p v)
    ∨ (∃ l, i = .sample l)

/-- The commands that write POUT and FPOS. -/
def writesLines (i : Instr) : Prop :=
  i = .init ∨ i = .platch ∨ i = .pclock ∨ (∃ p, i = .rdpad p) ∨ (∃ p, i = .rdmouse p)
    ∨ (∃ p, i = .classify p) ∨ (∃ p v, i = .setsens p v)

/-! ### 16-bit registers -/

/-- The 16-bit registers and the offset of each one's low byte (spec/20_memory.md R77). -/
def wordRegisters (s : State) : List (Offset × Word) :=
  [(0x00, s.cmd), (0x03, s.res), (0x05, s.pad1), (0x07, s.pad2)]

/-! ### Runs -/

/-- `n` PCLOCK commands, one after the other, stopping where one does not answer a next state. -/
def pclocks : Nat → State → Host.Outcome State Fault Refusal
  | 0, s => .next s
  | n + 1, s =>
    match exec .pclock s with
    | .next t => pclocks n t
    | .fault r => .fault r
    | .refused r => .refused r

/-- The states reachable from reset by steps of the machine, with the host presenting any inputs and the
peripherals any answers between steps. -/
inductive Reachable : State → Prop where
  | reset : Reachable State.reset
  | present (s : State) (inputs : List Input) (a b : List Bool) (h : Reachable s) :
      Reachable { s with inbox := s.inbox ++ inputs, levels0 := s.levels0 ++ a,
                         levels1 := s.levels1 ++ b }
  | step (s t : State) (h : Reachable s) (ht : Machine.step s = .next t) : Reachable t

/-- Inputs that reset the block. -/
def resets : Input → Bool
  | .reset => true
  | .issueThenReset _ _ => true
  | .read _ => false
  | .write _ _ => false

end Sys2Proof.Claims

open Sys2Proof Sys2Proof.Machine Sys2Proof.Claims

/-! ### Encoding -/

/-- R106, R109: decode and encode agree in both directions, on every word and every command. -/
def Obligations.DecodeIffEncode : Prop :=
  ∀ (w : Word) (i : Instr), decode w = .ok i ↔ encode i = w

/-- R106: there are 780 legal words. -/
def Obligations.LegalWordsAre780 : Prop :=
  ∃ ws : List Word, ws.Nodup ∧ ws.length = 780 ∧ ∀ w, w ∈ ws ↔ ∃ i, decode w = .ok i

/-- R107, R108, R110: exactly which words are refused by the decoder, and with which code. -/
def Obligations.DecodeErrorsExact : Prop :=
  ∀ c : Word,
    (decode c = .error .illop ↔ op c = 0 ∨ 0xB ≤ op c) ∧
    (decode c = .error .rsvd ↔
      ((op c = 1 ∨ op c = 2 ∨ op c = 7 ∨ op c = 8) ∧ c.toNat % 4096 ≠ 0) ∨
      ((op c = 3 ∨ op c = 4 ∨ op c = 5 ∨ op c = 9) ∧ (rsv c ≠ 0 ∨ imm c ≠ 0)) ∨
      (op c = 6 ∧ rsv c ≠ 0) ∨
      (op c = 0xA ∧ c.toNat / 256 % 16 ≠ 0)) ∧
    (decode c = .error .badsel ↔
      ((op c = 3 ∨ op c = 4 ∨ op c = 5 ∨ op c = 9) ∧ rsv c = 0 ∧ imm c = 0 ∧ 2 ≤ sel c) ∨
      (op c = 6 ∧ rsv c = 0 ∧ 2 ≤ sel c)) ∧
    (decode c ≠ .error .notinit ∧ decode c ≠ .error .seq)

/-- Words written out from R102 and R106, and what they decode to. -/
def Obligations.KnownWordsDecode : Prop :=
  decode 0b0001000000000000 = .ok .init ∧
  decode 0b0011000100000000 = .ok (.rdpad .p2) ∧
  decode 0b0100000000000000 = .ok (.rdmouse .p1) ∧
  decode 0b0110000111111111 = .ok (.setsens .p2 255) ∧
  decode 0b1001000100000000 = .ok (.sample .l1) ∧
  decode 0b1010000000010100 = .ok (.wait 20) ∧
  decode 0b0011001100000001 = .error .rsvd ∧
  decode 0b0011001100000000 = .error .badsel

/-- R111: the word each line of the syntax table stands for. -/
def Obligations.AssemblerWords : Prop :=
  assemble .init = some [0x1000] ∧ assemble .flush = some [0x2000] ∧
  assemble .platch = some [0x7000] ∧ assemble .pclock = some [0x8000] ∧
  (∀ n, n = 1 ∨ n = 2 →
    assemble (.rdpad n) = some [BitVec.ofNat 16 (0x3000 + 0x100 * (n - 1))] ∧
    assemble (.rdmouse n) = some [BitVec.ofNat 16 (0x4000 + 0x100 * (n - 1))] ∧
    assemble (.classify n) = some [BitVec.ofNat 16 (0x5000 + 0x100 * (n - 1))] ∧
    ∀ v, v ≤ 255 →
      assemble (.setsens n v) = some [BitVec.ofNat 16 (0x6000 + 0x100 * (n - 1) + v)]) ∧
  (∀ n, n = 0 ∨ n = 1 → assemble (.sample n) = some [BitVec.ofNat 16 (0x9000 + 0x100 * n)]) ∧
  (∀ v, v ≤ 255 → assemble (.wait v) = some [BitVec.ofNat 16 (0xA000 + v)]) ∧
  (∀ w, w ≤ 0xFFFF → assemble (.raw w) = some [BitVec.ofNat 16 w])

/-- R112: the pseudo-instructions and their expansions. -/
def Obligations.PseudoInstructionWords : Prop :=
  assemble .nop = assemble (.wait 0) ∧
  (∀ n, n = 1 ∨ n = 2 → ∃ a b, assemble (.rdpad n) = some [a] ∧ assemble (.rdmouse n) = some [b] ∧
    assemble (.mframe n) = some [a, b]) ∧
  assemble .readpads = assemble (.rdpad 1)

/-! ### Port driver -/

/-- R136: INIT. -/
def Obligations.InitCommand : Prop :=
  (∀ c, op c = 0x1 → decode c = formatN c .init) ∧
  ∀ s, exec .init s = .next
    { s with pout := 0x08, pdir := 0xFC, fpos := 0x00,
             csr := { s.csr with initd := true, err := 0 },
             trace := [.w 0x08, .p 0xFC], past := s.past ++ s.trace }

/-- R138: PLATCH. -/
def Obligations.PlatchCommand : Prop :=
  (∀ c, op c = 0x7 → decode c = formatN c .platch) ∧
  (∀ s, s.csr.initd = false → exec .platch s = .next (refused 4 s)) ∧
  ∀ s, s.csr.initd = true → exec .platch s = .next
    { s with pout := 0x08, fpos := 0x80, csr := { s.csr with err := 0 },
             trace := [.w 0x0C, .w 0x08], past := s.past ++ s.trace }

/-- R139: PCLOCK; FPOS advances while V = 1 and CNT is below 127. -/
def Obligations.PclockCommand : Prop :=
  (∀ c, op c = 0x8 → decode c = formatN c .pclock) ∧
  (∀ s, s.csr.initd = false → exec .pclock s = .next (refused 4 s)) ∧
  ∀ s, s.csr.initd = true → exec .pclock s = .next
    { s with pout := 0x08,
             fpos := if 128 ≤ s.fpos.toNat ∧ s.fpos.toNat < 255 then s.fpos + 1 else s.fpos,
             csr := { s.csr with err := 0 },
             trace := [.w 0x00, .w 0x08], past := s.past ++ s.trace }

/-- R140, R141: SAMPLE returns the raw level, in every environment. -/
def Obligations.SampleCommand : Prop :=
  (∀ c, op c = 0x9 → decode c =
    if rsv c ≠ 0 ∨ imm c ≠ 0 then .error .rsvd
    else if sel c = 0 then .ok (.sample .l0) else if sel c = 1 then .ok (.sample .l1)
    else .error .badsel) ∧
  ∀ l s, exec (.sample l) s = .next
    { s with res := if answer s [.s l] 0 l = true then 0x0001 else 0x0000,
             csr := { s.csr with err := 0 }, trace := [.s l], past := s.past ++ s.trace,
             levels0 := s.levels0.drop (if l = .l0 then 1 else 0),
             levels1 := s.levels1.drop (if l = .l1 then 1 else 0), draws := s.draws + 1 }

/-- R142: WAIT. -/
def Obligations.WaitCommand : Prop :=
  (∀ c, op c = 0xA → decode c =
    if c.toNat / 256 % 16 ≠ 0 then .error .rsvd else .ok (.wait (BitVec.ofNat 8 (imm c)))) ∧
  ∀ n s, exec (.wait n) s = .next
    { s with csr := { s.csr with err := 0 }, trace := [.d (.wait n)], past := s.past ++ s.trace }

/-- R48, R49: from a latch pulse on, CNT counts the clock pulses and stops at 127; with V = 0 FPOS stays
0x00. -/
def Obligations.FposCountsAndSaturates : Prop :=
  ∀ (n : Nat) (s : State), s.csr.initd = true →
    (s.fpos = 0x80 → ∃ t, pclocks n s = .next t ∧ t.fpos.toNat = 128 + min n 127) ∧
    (s.fpos = 0x00 → ∃ t, pclocks n s = .next t ∧ t.fpos = 0x00)

/-- R131, R47: after every command that drives the lines, the block drives the idle levels: clock high,
latch low, lines 4–7 low, and no data line. -/
def Obligations.LinesIdleAfterCommand : Prop :=
  ∀ (i : Instr) (s t : State), i = .init ∨ (drivesLines i = true ∧ s.pdir = 0xFC) →
    exec i s = .next t → t.csr.err = 0 →
    t.pout = 0x08 ∧ drivenLevel t 0 = none ∧ drivenLevel t 1 = none ∧
    drivenLevel t 2 = some false ∧ drivenLevel t 3 = some true ∧
    ∀ j : Fin 8, 4 ≤ j.val → drivenLevel t j = some false

/-! ### Frame reader and pad decoder -/

/-- R182, R161: RDPAD reads both lines into both masks, in every environment; the port chooses only what
goes to RES. -/
def Obligations.RdpadCommand : Prop :=
  (∀ c, op c = 0x3 → decode c = formatP c .rdpad) ∧
  (∀ p s, s.csr.initd = false → exec (.rdpad p) s = .next (refused 4 s)) ∧
  ∀ p s, s.csr.initd = true → ∃ m : Masks, frameRead m s frameTrace 0 ∧
    exec (.rdpad p) s = .next
      { s with pad1 := m.m1, pad2 := m.m2, res := if p = .p1 then m.m1 else m.m2,
               pout := 0x08, fpos := 0x8F, csr := { s.csr with err := 0 },
               trace := frameTrace, past := s.past ++ s.trace,
               levels0 := s.levels0.drop 16, levels1 := s.levels1.drop 16,
               draws := s.draws + 32 }

/-- R162, R163: with sixteen raw levels ready on port q's line, bit k of PAD[q] is the inverse of level
k, whatever the other line shows. -/
def Obligations.RdpadBitOrder : Prop :=
  ∀ (p q : Port) (s t : State) (a rest : List Bool), s.csr.initd = true →
    a.length = 16 → s.levels (dataLine q) = a ++ rest → exec (.rdpad p) s = .next t →
    (∀ k, k < 16 → (t.pad q).getLsbD k = !(a.getD k true)) ∧ t.levels (dataLine q) = rest ∧
    ((∀ k, k < 16 → a.getD k false = true) → t.pad q = 0x0000) ∧
    ((∀ k, k < 16 → a.getD k true = false) → t.pad q = 0xFFFF)

/-- R184, R180, R181: the model's positions are those of R180's table, a button is pressed exactly where
its bit of the mask is 1, and a frame with one active position shows exactly the button named there. -/
def Obligations.SinglePositionSingleButton : Prop :=
  (∀ button, buttonPosition button = namedPosition button) ∧
  (∀ (mask : Word) button, pressed mask button = mask.getLsbD (namedPosition button)) ∧
  ∀ (p : Port) (button : Button) (s t : State) (a rest : List Bool), s.csr.initd = true →
    a.length = 16 → s.levels (dataLine p) = a ++ rest →
    (∀ k, k < 16 → a.getD k true = decide (k ≠ namedPosition button)) →
    exec (.rdpad p) s = .next t →
    t.pad p = BitVec.ofNat 16 (2 ^ namedPosition button) ∧ t.res = t.pad p ∧
    ∀ other, pressed (t.pad p) other = decide (other = button)

/-- R183: two RDPADs that are answered the same 32 raw levels leave the same PAD[1], PAD[2] and RES. -/
def Obligations.RdpadIdempotent : Prop :=
  ∀ (p : Port) (s t u : State) (a b ra rb : List Bool), s.csr.initd = true →
    a.length = 16 → b.length = 16 → s.levels0 = a ++ (a ++ ra) → s.levels1 = b ++ (b ++ rb) →
    exec (.rdpad p) s = .next t → exec (.rdpad p) t = .next u →
    u.pad1 = t.pad1 ∧ u.pad2 = t.pad2 ∧ u.res = t.res

/-- R168: a lane's mask depends only on its own line's samples: two RDPADs, from any states, that get the
same sixteen levels on port q's line leave the same PAD[q]. -/
def Obligations.LanesIndependent : Prop :=
  ∀ (q p p' : Port) (s s' t t' : State) (a r r' : List Bool),
    s.csr.initd = true → s'.csr.initd = true → a.length = 16 →
    s.levels (dataLine q) = a ++ r → s'.levels (dataLine q) = a ++ r' →
    exec (.rdpad p) s = .next t → exec (.rdpad p') s' = .next t' → t.pad q = t'.pad q

/-- R169: a read of N bits leaves frame bit k at mask bit 16 − N + k, and nothing below. -/
def Obligations.ReadFrameBitPositions : Prop :=
  ∀ (n : Nat) (s : State) (a b ra rb : List Bool), 0 < n → n ≤ 16 → a.length = n → b.length = n →
    s.levels0 = a ++ ra → s.levels1 = b ++ rb →
    (∀ k, k < n → (readFrame n s).1.m1.getLsbD (16 - n + k) = !(a.getD k true)) ∧
    (∀ k, k < n → (readFrame n s).1.m2.getLsbD (16 - n + k) = !(b.getD k true)) ∧
    (∀ k, k < 16 - n → (readFrame n s).1.m1.getLsbD k = false ∧
      (readFrame n s).1.m2.getLsbD k = false)

/-! ### Mouse decoder -/

/-- R194, R191, R197: RDMOUSE reads two bytes from its own line, Y then X, in every environment. -/
def Obligations.RdmouseCommand : Prop :=
  (∀ c, op c = 0x4 → decode c = formatP c .rdmouse) ∧
  (∀ p s, s.csr.initd = false → exec (.rdmouse p) s = .next (refused 4 s)) ∧
  (∀ p s, s.csr.initd = true → s.fpos ≠ 0x8F → exec (.rdmouse p) s = .next (refused 5 s)) ∧
  ∀ p s, s.csr.initd = true → s.fpos = 0x8F →
    ∃ ry rx : Byte, byteRead ry s (mouseTrace (dataLine p)) 0 (dataLine p) ∧
      byteRead rx s (mouseTrace (dataLine p)) 32 (dataLine p) ∧
      exec (.rdmouse p) s = .next
        { s with
          mouse1 := if p = .p1 then mouseFrom ry rx s.pad1 else s.mouse1,
          mouse2 := if p = .p2 then mouseFrom ry rx s.pad2 else s.mouse2,
          res := (statusPattern (deltaPattern ry) (deltaPattern rx)).setWidth 16,
          pout := 0x08, fpos := 0x9F, csr := { s.csr with err := 0 },
          trace := mouseTrace (dataLine p), past := s.past ++ s.trace,
          levels0 := s.levels0.drop (if p = .p1 then 16 else 0),
          levels1 := s.levels1.drop (if p = .p2 then 16 else 0), draws := s.draws + 16 }

/-- R192, R193: the sign-magnitude decode, its range, its two zeros and its register pattern. -/
def Obligations.SignMagnitudeDecode : Prop :=
  (∀ r : Byte, -127 ≤ smdec r ∧ smdec r ≤ 127 ∧ (deltaRegister r).toInt = smdec r ∧
    deltaRegister r = deltaPattern r ∧ deltaRegister r ≠ 0x80) ∧
  (∀ r : Byte, smdec r = 0 ↔ r = 0x00 ∨ r = 0x80) ∧
  (∀ r : Byte, 0x01 ≤ r.toNat → r.toNat ≤ 0x7F →
    smdec r = (r.toNat : Int) ∧ smdec (r ||| 0x80) = -(r.toNat : Int)) ∧
  (∀ v : Int, -127 ≤ v → v ≤ 127 → ∃ r : Byte, smdec r = v)

/-- R195, R275, R112: MFRAME. RDPAD and then RDMOUSE on one latch read 32 frame bits in order: the mask,
the raw Y byte and the raw X byte, with one latch pulse and 31 clock pulses. -/
def Obligations.MouseFrameOnOneLatch : Prop :=
  ∀ (p : Port) (s : State) (f rest : List Bool), s.csr.initd = true → f.length = 32 →
    s.levels (dataLine p) = f ++ rest →
    ∃ (t u : State) (ry rx : Byte),
      exec (.rdpad p) s = .next t ∧ exec (.rdmouse p) t = .next u ∧
      (∀ k, k < 16 → (u.pad p).getLsbD k = !(f.getD k true)) ∧
      (∀ j, j < 8 → ry.getLsbD (7 - j) = !(f.getD (16 + j) true)) ∧
      (∀ j, j < 8 → rx.getLsbD (7 - j) = !(f.getD (24 + j) true)) ∧
      u.mouse p = mouseFrom ry rx (u.pad p) ∧ u.res = (u.mouse p).mstat.setWidth 16 ∧
      u.csr.err = 0 ∧ u.fpos = 0x9F ∧ u.levels (dataLine p) = rest ∧
      latchPulses (t.trace ++ u.trace) = 1 ∧ clockPulses (t.trace ++ u.trace) = 31 ∧
      ∀ j, j < 16 → (t.trace ++ u.trace)[64 + 4 * j + 3]? = some (.s (dataLine p)) ∧
        clockPulses ((t.trace ++ u.trace).take (64 + 4 * j + 3)) = 16 + j

/-- R194, R197: RDMOUSE leaves FPOS = 0x9F, so a second RDMOUSE of either port is refused with SEQ. -/
def Obligations.SecondRdmouseRefused : Prop :=
  ∀ (p q : Port) (s t : State), exec (.rdmouse p) s = .next t → t.csr.err = 0 →
    exec (.rdmouse q) t = .next (refused 5 t)

/-- R280 (H2), R281, R282, R275: PLATCH, PCLOCK, INIT, SETSENS or another RDMOUSE between RDPAD and
RDMOUSE makes the RDMOUSE fail with SEQ; FLUSH, SAMPLE, WAIT and a second RDPAD do not, and the RDPAD
leaves FPOS = 0x8F; CLASSIFY does exactly where it returned Mouse. Every command is one of these. -/
def Obligations.InterruptedFrameRefused : Prop :=
  ∀ (i : Instr) (p : Port) (s t : State), s.csr.initd = true → s.fpos = 0x8F → exec i s = .next t →
    (i = .init ∨ i = .platch ∨ i = .pclock ∨ (∃ q v, i = .setsens q v) ∨ (∃ q, i = .rdmouse q) →
      exec (.rdmouse p) t = .next (refused 5 t)) ∧
    (i = .flush ∨ (∃ l, i = .sample l) ∨ (∃ n, i = .wait n) ∨ (∃ q, i = .rdpad q) →
      ∃ u, exec (.rdmouse p) t = .next u ∧ u.csr.err = 0) ∧
    (∀ q, i = .rdpad q → t.csr.err = 0 ∧ t.fpos = 0x8F) ∧
    (∀ q, i = .classify q →
      (t.res = 2 → exec (.rdmouse p) t = .next (refused 5 t)) ∧
      (t.res ≠ 2 → ∃ u, exec (.rdmouse p) t = .next u ∧ u.csr.err = 0))

/-- R194, R280 (H6): after a FLUSH, RDMOUSE runs and MRAW[p] is 0x00. -/
def Obligations.FlushedRawStatus : Prop :=
  ∀ (p : Port) (s : State), s.csr.initd = true → s.fpos = 0x8F →
    ∃ t u, exec .flush s = .next t ∧ exec (.rdmouse p) t = .next u ∧ u.csr.err = 0 ∧
      (u.mouse p).mraw = 0x00

/-! ### Device identifier -/

/-- R210: FLUSH. -/
def Obligations.FlushCommand : Prop :=
  (∀ c, op c = 0x2 → decode c = formatN c .flush) ∧
  ∀ s, exec .flush s = .next
    { s with pad1 := 0, pad2 := 0, mouse1 := mouseZero, mouse2 := mouseZero, brand := 0,
             csr := { s.csr with brandv := false, err := 0 }, trace := [],
             past := s.past ++ s.trace }

/-- R211, R212: the class of a mask, by its nibble and by the range of the whole mask. -/
def Obligations.ClassOfMask : Prop :=
  ∀ m : Word,
    (cls m = .pad ↔ m.toNat ≤ 0x0FFF) ∧
    (cls m = .mouse ↔ 0x8000 ≤ m.toNat ∧ m.toNat ≤ 0x8FFF) ∧
    (cls m = .none ↔
      (0x1000 ≤ m.toNat ∧ m.toNat ≤ 0x7FFF) ∨ (0x9000 ≤ m.toNat ∧ m.toNat ≤ 0xFFFF)) ∧
    (cls m = .pad ↔ m.toNat / 4096 = 0) ∧ (cls m = .mouse ↔ m.toNat / 4096 = 8)

/-- R214: the brand class of a byte. -/
def Obligations.BrandClassOfByte : Prop :=
  ∀ b : Byte, (brandClass b = .vendorA ↔ b = 0x00) ∧ (brandClass b = .vendorB ↔ b = 0x80) ∧
    (brandClass b = .unrecognized ↔ b ≠ 0x00 ∧ b ≠ 0x80)

/-- R215, R217, R218: CLASSIFY, in every environment. Frame A decides the class. Unless it is Mouse, the
PADs hold frame A and the MouseStates and BRAND are flushed. If it is, the PADs hold frame C, port p's
MouseState frame C's decode, BRAND frame C's raw Y byte. -/
def Obligations.ClassifyCommand : Prop :=
  (∀ c, op c = 0x5 → decode c = formatP c .classify) ∧
  (∀ p s, s.csr.initd = false → exec (.classify p) s = .next (refused 4 s)) ∧
  ∀ p s, s.csr.initd = true →
    ∃ a : Masks, frameRead a s frameTrace 0 ∧
      (((a.of p).toNat / 4096 ≠ 8 ∧ exec (.classify p) s = .next
        { s with pad1 := a.m1, pad2 := a.m2, mouse1 := mouseZero, mouse2 := mouseZero, brand := 0,
                 res := if (a.of p).toNat / 4096 = 0 then 1 else 0,
                 pout := 0x08, fpos := 0x8F, csr := { s.csr with brandv := false, err := 0 },
                 trace := frameTrace, past := s.past ++ s.trace,
                 levels0 := s.levels0.drop 16, levels1 := s.levels1.drop 16,
                 draws := s.draws + 32 }) ∨
       ((a.of p).toNat / 4096 = 8 ∧ ∃ (c : Masks) (ry rx : Byte),
        frameRead c s (mouseProbeTrace (dataLine p)) 192 ∧
        byteRead ry s (mouseProbeTrace (dataLine p)) 256 (dataLine p) ∧
        byteRead rx s (mouseProbeTrace (dataLine p)) 288 (dataLine p) ∧
        exec (.classify p) s = .next
          { s with
            pad1 := c.m1, pad2 := c.m2,
            mouse1 := if p = .p1 then mouseFrom ry rx c.m1 else mouseZero,
            mouse2 := if p = .p2 then mouseFrom ry rx c.m2 else mouseZero,
            brand := ry, res := 2, pout := 0x08, fpos := 0x9F,
            csr := { s.csr with brandv := true, err := 0 },
            trace := mouseProbeTrace (dataLine p), past := s.past ++ s.trace,
            levels0 := s.levels0.drop (if p = .p1 then 80 else 48),
            levels1 := s.levels1.drop (if p = .p2 then 80 else 48), draws := s.draws + 128 }))

/-- R216: the class CLASSIFY p returns depends only on frame A's nibble on port p: two CLASSIFYs, from any
states, whose frames A have the same levels 12 to 15 on port p's line return the same RES. -/
def Obligations.ClassFromFirstFrameOnly : Prop :=
  ∀ (p : Port) (s s' t t' : State) (a a' r r' : List Bool),
    s.csr.initd = true → s'.csr.initd = true → a.length = 16 → a'.length = 16 →
    s.levels (dataLine p) = a ++ r → s'.levels (dataLine p) = a' ++ r' →
    (∀ k, 12 ≤ k → k < 16 → a.getD k true = a'.getD k true) →
    exec (.classify p) s = .next t → exec (.classify p) s' = .next t' → t.res = t'.res

/-- R275: after CLASSIFY has returned Mouse an RDMOUSE is refused with SEQ; after Pad (or None) it is in
sequence. -/
def Obligations.RdmouseAfterClassify : Prop :=
  ∀ (p q : Port) (s t : State), exec (.classify p) s = .next t → t.csr.err = 0 →
    (t.res = 2 → exec (.rdmouse q) t = .next (refused 5 t)) ∧
    (t.res ≠ 2 → ∃ u, exec (.rdmouse q) t = .next u ∧ u.csr.err = 0)

/-- R213: with a port's line held at one raw level for the whole frame, CLASSIFY returns Pad for level 1
and None for level 0. -/
def Obligations.ClassOfHeldLine : Prop :=
  ∀ (p : Port) (s t : State) (r : List Bool), s.csr.initd = true → exec (.classify p) s = .next t →
    (s.levels (dataLine p) = List.replicate 16 true ++ r → t.pad p = 0x0000 ∧ t.res = 1) ∧
    (s.levels (dataLine p) = List.replicate 16 false ++ r → t.pad p = 0xFFFF ∧ t.res = 0)

/-! ### Sensitivity initializer -/

/-- R231, R232, R233: SETSENS; the port and the level change nothing. -/
def Obligations.SetsensCommand : Prop :=
  (∀ c, op c = 0x6 → decode c =
    if rsv c ≠ 0 then .error .rsvd
    else if sel c = 0 then .ok (.setsens .p1 (BitVec.ofNat 8 (imm c)))
    else if sel c = 1 then .ok (.setsens .p2 (BitVec.ofNat 8 (imm c))) else .error .badsel) ∧
  (∀ p v s, s.csr.initd = false → exec (.setsens p v) s = .next (refused 4 s)) ∧
  ∀ p v s, s.csr.initd = true → exec (.setsens p v) s = .next
    { s with res := Config.sensStatus.setWidth 16, pout := 0x08, fpos := 0x00,
             csr := { s.csr with err := 0 }, trace := sensTrace, past := s.past ++ s.trace }

/-! ### Validation, errors, frames -/

/-- R242, R243, R244, R246: the outcome code of every decoded command in every state. A command that
passes leaves ERRS alone; one that fails has only the effects of R244. -/
def Obligations.ValidationExact : Prop :=
  ∀ (i : Instr) (s : State), ∃ t, exec i s = .next t ∧ t.csr.err = outcomeCode i s ∧
    (outcomeCode i s = 0 → t.csr.errs = s.csr.errs) ∧
    (outcomeCode i s ≠ 0 → t = refused (outcomeCode i s) s)

/-- R53, R40: only the listed commands write each register; CMD, the host's accesses and the answers
given are written by none. -/
def Obligations.OnlyListedWriters : Prop :=
  ∀ (i : Instr) (s t : State), exec i s = .next t →
    (¬ writesPads i → t.pad1 = s.pad1 ∧ t.pad2 = s.pad2) ∧
    (∀ p, ¬ writesMouse p i → t.mouse p = s.mouse p) ∧
    (¬ writesBrand i → t.brand = s.brand ∧ t.csr.brandv = s.csr.brandv) ∧
    (¬ writesRes i → t.res = s.res) ∧
    (i ≠ .init → t.csr.initd = s.csr.initd ∧ t.pdir = s.pdir) ∧
    (¬ writesLines i → t.pout = s.pout ∧ t.fpos = s.fpos) ∧
    t.cmd = s.cmd ∧ t.inbox = s.inbox ∧ t.readData = s.readData

/-- R242, R244: the outcome code of every issued word, legal or not, in every state. A refused word
changes CSR.ERR and CSR.ERRS and nothing else (CMD holds it, from the write that issued it). -/
def Obligations.IssuedWordValidated : Prop :=
  ∀ (s : State) (v : Byte) (rest : List Input), s.inbox = .write 0x01 v :: rest →
    ∃ (w : Word) (t : State), w.extractLsb' 0 8 = s.cmd.extractLsb' 0 8 ∧ w.extractLsb' 8 8 = v ∧
      step s = .next t ∧ t.cmd = w ∧ t.csr.err = validate w s ∧
      (validate w s = 0 → t.csr.errs = s.csr.errs) ∧
      (validate w s ≠ 0 → t = refused (validate w s) { s with inbox := rest, cmd := w })

/-- R286: the pulses, samples, delays and events of every command that runs; a refused one has none. -/
def Obligations.TraceCounts : Prop :=
  ∀ (i : Instr) (s t : State), exec i s = .next t →
    (t.csr.err = 0 → ∀ n, counts n t.trace = countsOf i (decide (t.res = 2)) n) ∧
    (t.csr.err ≠ 0 → t.trace = [])

/-- R288, R9: the lower bound on the duration of every command that runs, in seconds and in periods of
F_CLK, for all values of the timing parameters. -/
def Obligations.LeastDurationOfCommand : Prop :=
  ∀ (T : Timing) (i : Instr) (s t : State), exec i s = .next t → t.csr.err = 0 →
    minDuration T t.trace = leastDuration T i (decide (t.res = 2)) ∧
    minClockPeriods T t.trace = leastDuration T i (decide (t.res = 2)) * T.fClk

/-- R220: no command but CLASSIFY has a trace that depends on anything but its operands. -/
def Obligations.TraceFixedByOperands : Prop :=
  ∀ (i : Instr) (s s' t t' : State), (¬ ∃ p, i = .classify p) → exec i s = .next t →
    exec i s' = .next t' → t.csr.err = 0 → t'.csr.err = 0 → t.trace = t'.trace

/-- R85, R253: what has happened on the lines stays: every step only adds events at the end. -/
def Obligations.HistoryOnlyGrows : Prop :=
  ∀ s t : State, step s = .next t → ∃ es, t.past ++ t.trace = s.past ++ s.trace ++ es

/-- R272, R44, R248: only reset clears CSR.INITD and CSR.ERRS. -/
def Obligations.OnlyResetClearsSticky : Prop :=
  ∀ s t : State, step s = .next t → (∀ i rest, s.inbox = i :: rest → resets i = false) →
    (s.csr.initd = true → t.csr.initd = true) ∧ (s.csr.errs = true → t.csr.errs = true)

/-- R240, R246, R247: nothing stops the block: every step answers a next state. -/
def Obligations.EveryStepAnswers : Prop := ∀ s : State, ∃ t, step s = .next t

/-! ### Host interface -/

/-- R71, R72, R77: the register map. -/
def Obligations.RegisterMap : Prop :=
  ∀ s : State,
    readRegister s 0x00 = s.cmd.extractLsb' 0 8 ∧ readRegister s 0x01 = s.cmd.extractLsb' 8 8 ∧
    readRegister s 0x02 = s.csr.toByte ∧
    readRegister s 0x03 = s.res.extractLsb' 0 8 ∧ readRegister s 0x04 = s.res.extractLsb' 8 8 ∧
    readRegister s 0x05 = s.pad1.extractLsb' 0 8 ∧ readRegister s 0x06 = s.pad1.extractLsb' 8 8 ∧
    readRegister s 0x07 = s.pad2.extractLsb' 0 8 ∧ readRegister s 0x08 = s.pad2.extractLsb' 8 8 ∧
    readRegister s 0x09 = s.mouse1.my ∧ readRegister s 0x0A = s.mouse1.mx ∧
    readRegister s 0x0B = s.mouse1.mstat ∧ readRegister s 0x0C = s.mouse1.mraw ∧
    readRegister s 0x0D = s.mouse2.my ∧ readRegister s 0x0E = s.mouse2.mx ∧
    readRegister s 0x0F = s.mouse2.mstat ∧ readRegister s 0x10 = s.mouse2.mraw ∧
    readRegister s 0x11 = s.brand ∧ readRegister s 0x12 = s.fpos ∧
    readRegister s 0x13 = s.pdir ∧ readRegister s 0x14 = s.pout ∧
    ∀ off : Offset, 0x15 ≤ off.toNat → readRegister s off = 0x00

/-- R42, R43: the bits of the CSR byte; IEN and bit 7 read 0. -/
def Obligations.CsrLayout : Prop :=
  ∀ c : Csr, c.toByte.getLsbD 0 = c.initd ∧ c.toByte.getLsbD 1 = false ∧
    c.toByte.getLsbD 2 = c.brandv ∧ c.toByte.getLsbD 3 = c.errs ∧
    c.toByte.extractLsb' 4 3 = c.err ∧ c.toByte.getLsbD 7 = false

/-- R74, R72: a HostRead answers the register's byte (0x00 at a reserved offset) and changes nothing
else, so a second read answers the same byte; a HostWrite to any offset but CMDL and CMDH is ignored. -/
def Obligations.HostAccessesWithoutEffect : Prop :=
  (∀ (s : State) (off : Offset) (rest : List Input), s.inbox = .read off :: rest →
    step s = .next { s with inbox := rest, readData := s.readData ++ [readRegister s off] } ∧
    (0x15 ≤ off.toNat → readRegister s off = 0x00)) ∧
  (∀ (s t : State) (off : Offset) (rest : List Input), s.inbox = .read off :: .read off :: rest →
    step s = .next t → ∃ u b, step t = .next u ∧ u.readData = s.readData ++ [b, b]) ∧
  (∀ (s : State) (off : Offset) (v : Byte) (rest : List Input), 0x02 ≤ off.toNat →
    s.inbox = .write off v :: rest → step s = .next { s with inbox := rest })

/-- R73: a CMDL write changes CMD[7:0] and nothing else. -/
def Obligations.CmdlWrite : Prop :=
  ∀ (s : State) (v : Byte) (rest : List Input), s.inbox = .write 0x00 v :: rest →
    ∃ w : Word, w.extractLsb' 0 8 = v ∧ w.extractLsb' 8 8 = s.cmd.extractLsb' 8 8 ∧
      step s = .next { s with inbox := rest, cmd := w }

/-- R73, R88, R242, R244: a CMDH write issues the word {v, CMDL}: the step runs the decoded command, or
records the decoder's error and does nothing else. -/
def Obligations.StepRunsDecodedCommand : Prop :=
  ∀ (s : State) (v : Byte) (rest : List Input), s.inbox = .write 0x01 v :: rest →
    ∃ w : Word, w.extractLsb' 0 8 = s.cmd.extractLsb' 0 8 ∧ w.extractLsb' 8 8 = v ∧
      (∀ i, decode w = .ok i → step s = exec i { s with inbox := rest, cmd := w }) ∧
      (∀ e, decode w = .error e →
        step s = .next (refused (errorCode e) { s with inbox := rest, cmd := w }))

/-- R241: the number of each error. -/
def Obligations.ErrorCodes : Prop :=
  errorCode .illop = 1 ∧ errorCode .rsvd = 2 ∧ errorCode .badsel = 3 ∧ errorCode .notinit = 4 ∧
    errorCode .seq = 5

/-- R113: the two accesses of a word run exactly that word, whatever CMD held. -/
def Obligations.ProgramWordRuns : Prop :=
  ∀ (s : State) (i : Instr) (rest : List Input), s.inbox = programAccesses [encode i] ++ rest →
    ∃ s1, step s = .next s1 ∧ step s1 = exec i { s with inbox := rest, cmd := encode i }

/-- R80, R77: a 16-bit register read with two accesses, no command between them, gives the two halves of
one value, the low byte at the lower offset. -/
def Obligations.TwoByteReadIsWhole : Prop :=
  ∀ (s : State) (off : Offset) (r : Word) (rest : List Input), (off, r) ∈ wordRegisters s →
    s.inbox = .read off :: .read (off + 1) :: rest →
    ∃ s1 s2 lo hi, step s = .next s1 ∧ step s1 = .next s2 ∧
      s2.readData = s.readData ++ [lo, hi] ∧ (hi ++ lo : Word) = r ∧
      wordRegisters s2 = wordRegisters s

/-- Model's choice (log 11, from R261 and R271): with no input the block is idle and keeps its state. -/
def Obligations.IdleKeepsState : Prop := ∀ s : State, s.inbox = [] → step s = .next s

/-! ### Reset and invariants -/

/-- R54: every register after reset, and every offset reads 0. -/
def Obligations.ResetValues : Prop :=
  State.reset.pad1 = 0 ∧ State.reset.pad2 = 0 ∧ State.reset.mouse1 = mouseZero ∧
  State.reset.mouse2 = mouseZero ∧ State.reset.brand = 0 ∧ State.reset.res = 0 ∧
  State.reset.cmd = 0 ∧ State.reset.csr.toByte = 0 ∧ State.reset.pout = 0 ∧
  State.reset.pdir = 0 ∧ State.reset.fpos = 0 ∧
  (∀ off : Offset, readRegister State.reset off = 0) ∧
  (∀ j : Fin 8, drivenLevel State.reset j = none)

/-- R270: the reset input sets every register to its reset value and produces no event; no line is
driven after it. -/
def Obligations.ResetInput : Prop :=
  ∀ (s : State) (rest : List Input), s.inbox = .reset :: rest →
    ∃ u, step s = .next u ∧ u.past ++ u.trace = s.past ++ s.trace ∧ u.trace = [] ∧
      u.pad1 = 0 ∧ u.pad2 = 0 ∧ u.mouse1 = mouseZero ∧ u.mouse2 = mouseZero ∧ u.brand = 0 ∧
      u.res = 0 ∧ u.cmd = 0 ∧ u.csr.toByte = 0 ∧ u.pout = 0 ∧ u.pdir = 0 ∧ u.fpos = 0 ∧
      ∀ j, drivenLevel u j = none

/-- Model's choice (log 10): the reset input leaves the host's held accesses, the answers the
peripherals have ready, the answers given and the number of draws as they were. -/
def Obligations.ResetKeepsNeighbours : Prop :=
  ∀ (s : State) (rest : List Input), s.inbox = .reset :: rest →
    ∃ u, step s = .next u ∧ u.inbox = rest ∧ u.levels0 = s.levels0 ∧ u.levels1 = s.levels1 ∧
      u.draws = s.draws ∧ u.readData = s.readData

/-- R253 (the cut after `n` events: log 5): a reset during a command abandons it: the events before it stay, no further event occurs, and
every register takes its reset value. -/
def Obligations.ResetCutsCommand : Prop :=
  ∀ (s : State) (v : Byte) (n : Nat) (rest : List Input), s.inbox = .issueThenReset v n :: rest →
    ∃ t u, step { s with inbox := .write 0x01 v :: rest } = .next t ∧ step s = .next u ∧
      u.past = t.past ∧ u.trace = t.trace.take n ∧
      u.pad1 = 0 ∧ u.pad2 = 0 ∧ u.mouse1 = mouseZero ∧ u.mouse2 = mouseZero ∧ u.brand = 0 ∧
      u.res = 0 ∧ u.cmd = 0 ∧ u.csr.toByte = 0 ∧ u.pout = 0 ∧ u.pdir = 0 ∧ u.fpos = 0 ∧
      u.draws = s.draws + samples u.trace

/-- The invariant holds at reset. -/
def Obligations.ResetMeetsInvariant : Prop := State.reset.Inv

/-- The invariant (lines at rest, error recorded, FPOS known or zero, MouseState consistent, BRAND zero
without BRANDV, nothing read before INIT) is kept by every step from every state. -/
def Obligations.StepKeepsInvariant : Prop :=
  ∀ s t : State, s.Inv → step s = .next t → t.Inv

/-- R45: in every reachable state POUT between transactions is 0x00 or the idle level 0x08; R35: no
reachable delta is −128; R241, R42: CSR.ERR is never 6 or 7. -/
def Obligations.ReachableRegisterValues : Prop :=
  ∀ s : State, Reachable s →
    (s.pout = 0x00 ∨ s.pout = 0x08) ∧
    (∀ p, (s.mouse p).my ≠ 0x80 ∧ (s.mouse p).mx ≠ 0x80 ∧
      (s.mouse p).mstat = statusPattern (s.mouse p).my (s.mouse p).mx) ∧
    s.csr.err ≠ 6 ∧ s.csr.err ≠ 7 ∧
    (s.csr.initd = true → s.pdir = 0xFC) ∧ (s.csr.initd = false → s.pdir = 0x00)
end

