-- ==== Sys2Proof/Laws/State.lean ====
section
/-! SUPPORT. One lemma per field of State for each update of it, so that no later proof unfolds a
record update. -/

namespace Sys2Proof.Machine

variable (s : State)

/-! ### emit -/

@[simp] theorem emit_pad1 (e : Event) : (emit e s).pad1 = s.pad1 := rfl
@[simp] theorem emit_pad2 (e : Event) : (emit e s).pad2 = s.pad2 := rfl
@[simp] theorem emit_mouse1 (e : Event) : (emit e s).mouse1 = s.mouse1 := rfl
@[simp] theorem emit_mouse2 (e : Event) : (emit e s).mouse2 = s.mouse2 := rfl
@[simp] theorem emit_brand (e : Event) : (emit e s).brand = s.brand := rfl
@[simp] theorem emit_res (e : Event) : (emit e s).res = s.res := rfl
@[simp] theorem emit_cmd (e : Event) : (emit e s).cmd = s.cmd := rfl
@[simp] theorem emit_csr (e : Event) : (emit e s).csr = s.csr := rfl
@[simp] theorem emit_pout (e : Event) : (emit e s).pout = s.pout := rfl
@[simp] theorem emit_pdir (e : Event) : (emit e s).pdir = s.pdir := rfl
@[simp] theorem emit_fpos (e : Event) : (emit e s).fpos = s.fpos := rfl
@[simp] theorem emit_trace (e : Event) : (emit e s).trace = s.trace ++ [e] := rfl
@[simp] theorem emit_past (e : Event) : (emit e s).past = s.past := rfl
@[simp] theorem emit_levels0 (e : Event) : (emit e s).levels0 = s.levels0 := rfl
@[simp] theorem emit_levels1 (e : Event) : (emit e s).levels1 = s.levels1 := rfl
@[simp] theorem emit_draws (e : Event) : (emit e s).draws = s.draws := rfl
@[simp] theorem emit_inbox (e : Event) : (emit e s).inbox = s.inbox := rfl
@[simp] theorem emit_readData (e : Event) : (emit e s).readData = s.readData := rfl

/-! ### portWrite -/

@[simp] theorem portWrite_pad1 (v : Byte) : (portWrite v s).pad1 = s.pad1 := rfl
@[simp] theorem portWrite_pad2 (v : Byte) : (portWrite v s).pad2 = s.pad2 := rfl
@[simp] theorem portWrite_mouse1 (v : Byte) : (portWrite v s).mouse1 = s.mouse1 := rfl
@[simp] theorem portWrite_mouse2 (v : Byte) : (portWrite v s).mouse2 = s.mouse2 := rfl
@[simp] theorem portWrite_brand (v : Byte) : (portWrite v s).brand = s.brand := rfl
@[simp] theorem portWrite_res (v : Byte) : (portWrite v s).res = s.res := rfl
@[simp] theorem portWrite_cmd (v : Byte) : (portWrite v s).cmd = s.cmd := rfl
@[simp] theorem portWrite_csr (v : Byte) : (portWrite v s).csr = s.csr := rfl
@[simp] theorem portWrite_pout (v : Byte) : (portWrite v s).pout = v := rfl
@[simp] theorem portWrite_pdir (v : Byte) : (portWrite v s).pdir = s.pdir := rfl
@[simp] theorem portWrite_fpos (v : Byte) : (portWrite v s).fpos = s.fpos := rfl
@[simp] theorem portWrite_trace (v : Byte) : (portWrite v s).trace = s.trace ++ [.w v] := rfl
@[simp] theorem portWrite_past (v : Byte) : (portWrite v s).past = s.past := rfl
@[simp] theorem portWrite_levels0 (v : Byte) : (portWrite v s).levels0 = s.levels0 := rfl
@[simp] theorem portWrite_levels1 (v : Byte) : (portWrite v s).levels1 = s.levels1 := rfl
@[simp] theorem portWrite_draws (v : Byte) : (portWrite v s).draws = s.draws := rfl
@[simp] theorem portWrite_inbox (v : Byte) : (portWrite v s).inbox = s.inbox := rfl
@[simp] theorem portWrite_readData (v : Byte) : (portWrite v s).readData = s.readData := rfl

/-! ### dirWrite -/

@[simp] theorem dirWrite_pad1 (m : Byte) : (dirWrite m s).pad1 = s.pad1 := rfl
@[simp] theorem dirWrite_pad2 (m : Byte) : (dirWrite m s).pad2 = s.pad2 := rfl
@[simp] theorem dirWrite_mouse1 (m : Byte) : (dirWrite m s).mouse1 = s.mouse1 := rfl
@[simp] theorem dirWrite_mouse2 (m : Byte) : (dirWrite m s).mouse2 = s.mouse2 := rfl
@[simp] theorem dirWrite_brand (m : Byte) : (dirWrite m s).brand = s.brand := rfl
@[simp] theorem dirWrite_res (m : Byte) : (dirWrite m s).res = s.res := rfl
@[simp] theorem dirWrite_cmd (m : Byte) : (dirWrite m s).cmd = s.cmd := rfl
@[simp] theorem dirWrite_csr (m : Byte) : (dirWrite m s).csr = s.csr := rfl
@[simp] theorem dirWrite_pout (m : Byte) : (dirWrite m s).pout = s.pout := rfl
@[simp] theorem dirWrite_pdir (m : Byte) : (dirWrite m s).pdir = m := rfl
@[simp] theorem dirWrite_fpos (m : Byte) : (dirWrite m s).fpos = s.fpos := rfl
@[simp] theorem dirWrite_trace (m : Byte) : (dirWrite m s).trace = s.trace ++ [.p m] := rfl
@[simp] theorem dirWrite_past (m : Byte) : (dirWrite m s).past = s.past := rfl
@[simp] theorem dirWrite_levels0 (m : Byte) : (dirWrite m s).levels0 = s.levels0 := rfl
@[simp] theorem dirWrite_levels1 (m : Byte) : (dirWrite m s).levels1 = s.levels1 := rfl
@[simp] theorem dirWrite_draws (m : Byte) : (dirWrite m s).draws = s.draws := rfl
@[simp] theorem dirWrite_inbox (m : Byte) : (dirWrite m s).inbox = s.inbox := rfl
@[simp] theorem dirWrite_readData (m : Byte) : (dirWrite m s).readData = s.readData := rfl

/-! ### delay -/

@[simp] theorem delay_pad1 (k : Delay) : (delay k s).pad1 = s.pad1 := rfl
@[simp] theorem delay_pad2 (k : Delay) : (delay k s).pad2 = s.pad2 := rfl
@[simp] theorem delay_mouse1 (k : Delay) : (delay k s).mouse1 = s.mouse1 := rfl
@[simp] theorem delay_mouse2 (k : Delay) : (delay k s).mouse2 = s.mouse2 := rfl
@[simp] theorem delay_brand (k : Delay) : (delay k s).brand = s.brand := rfl
@[simp] theorem delay_res (k : Delay) : (delay k s).res = s.res := rfl
@[simp] theorem delay_cmd (k : Delay) : (delay k s).cmd = s.cmd := rfl
@[simp] theorem delay_csr (k : Delay) : (delay k s).csr = s.csr := rfl
@[simp] theorem delay_pout (k : Delay) : (delay k s).pout = s.pout := rfl
@[simp] theorem delay_pdir (k : Delay) : (delay k s).pdir = s.pdir := rfl
@[simp] theorem delay_fpos (k : Delay) : (delay k s).fpos = s.fpos := rfl
@[simp] theorem delay_trace (k : Delay) : (delay k s).trace = s.trace ++ [.d k] := rfl
@[simp] theorem delay_past (k : Delay) : (delay k s).past = s.past := rfl
@[simp] theorem delay_levels0 (k : Delay) : (delay k s).levels0 = s.levels0 := rfl
@[simp] theorem delay_levels1 (k : Delay) : (delay k s).levels1 = s.levels1 := rfl
@[simp] theorem delay_draws (k : Delay) : (delay k s).draws = s.draws := rfl
@[simp] theorem delay_inbox (k : Delay) : (delay k s).inbox = s.inbox := rfl
@[simp] theorem delay_readData (k : Delay) : (delay k s).readData = s.readData := rfl

/-! ### setPads -/

@[simp] theorem setPads_pad1 (m : Masks) : (setPads m s).pad1 = m.m1 := rfl
@[simp] theorem setPads_pad2 (m : Masks) : (setPads m s).pad2 = m.m2 := rfl
@[simp] theorem setPads_mouse1 (m : Masks) : (setPads m s).mouse1 = s.mouse1 := rfl
@[simp] theorem setPads_mouse2 (m : Masks) : (setPads m s).mouse2 = s.mouse2 := rfl
@[simp] theorem setPads_brand (m : Masks) : (setPads m s).brand = s.brand := rfl
@[simp] theorem setPads_res (m : Masks) : (setPads m s).res = s.res := rfl
@[simp] theorem setPads_cmd (m : Masks) : (setPads m s).cmd = s.cmd := rfl
@[simp] theorem setPads_csr (m : Masks) : (setPads m s).csr = s.csr := rfl
@[simp] theorem setPads_pout (m : Masks) : (setPads m s).pout = s.pout := rfl
@[simp] theorem setPads_pdir (m : Masks) : (setPads m s).pdir = s.pdir := rfl
@[simp] theorem setPads_fpos (m : Masks) : (setPads m s).fpos = s.fpos := rfl
@[simp] theorem setPads_trace (m : Masks) : (setPads m s).trace = s.trace := rfl
@[simp] theorem setPads_past (m : Masks) : (setPads m s).past = s.past := rfl
@[simp] theorem setPads_levels0 (m : Masks) : (setPads m s).levels0 = s.levels0 := rfl
@[simp] theorem setPads_levels1 (m : Masks) : (setPads m s).levels1 = s.levels1 := rfl
@[simp] theorem setPads_draws (m : Masks) : (setPads m s).draws = s.draws := rfl
@[simp] theorem setPads_inbox (m : Masks) : (setPads m s).inbox = s.inbox := rfl
@[simp] theorem setPads_readData (m : Masks) : (setPads m s).readData = s.readData := rfl

/-! ### setRes -/

@[simp] theorem setRes_pad1 (v : Word) : (setRes v s).pad1 = s.pad1 := rfl
@[simp] theorem setRes_pad2 (v : Word) : (setRes v s).pad2 = s.pad2 := rfl
@[simp] theorem setRes_mouse1 (v : Word) : (setRes v s).mouse1 = s.mouse1 := rfl
@[simp] theorem setRes_mouse2 (v : Word) : (setRes v s).mouse2 = s.mouse2 := rfl
@[simp] theorem setRes_brand (v : Word) : (setRes v s).brand = s.brand := rfl
@[simp] theorem setRes_res (v : Word) : (setRes v s).res = v := rfl
@[simp] theorem setRes_cmd (v : Word) : (setRes v s).cmd = s.cmd := rfl
@[simp] theorem setRes_csr (v : Word) : (setRes v s).csr = s.csr := rfl
@[simp] theorem setRes_pout (v : Word) : (setRes v s).pout = s.pout := rfl
@[simp] theorem setRes_pdir (v : Word) : (setRes v s).pdir = s.pdir := rfl
@[simp] theorem setRes_fpos (v : Word) : (setRes v s).fpos = s.fpos := rfl
@[simp] theorem setRes_trace (v : Word) : (setRes v s).trace = s.trace := rfl
@[simp] theorem setRes_past (v : Word) : (setRes v s).past = s.past := rfl
@[simp] theorem setRes_levels0 (v : Word) : (setRes v s).levels0 = s.levels0 := rfl
@[simp] theorem setRes_levels1 (v : Word) : (setRes v s).levels1 = s.levels1 := rfl
@[simp] theorem setRes_draws (v : Word) : (setRes v s).draws = s.draws := rfl
@[simp] theorem setRes_inbox (v : Word) : (setRes v s).inbox = s.inbox := rfl
@[simp] theorem setRes_readData (v : Word) : (setRes v s).readData = s.readData := rfl

/-! ### setFpos -/

@[simp] theorem setFpos_pad1 (f : Byte) : (setFpos f s).pad1 = s.pad1 := rfl
@[simp] theorem setFpos_pad2 (f : Byte) : (setFpos f s).pad2 = s.pad2 := rfl
@[simp] theorem setFpos_mouse1 (f : Byte) : (setFpos f s).mouse1 = s.mouse1 := rfl
@[simp] theorem setFpos_mouse2 (f : Byte) : (setFpos f s).mouse2 = s.mouse2 := rfl
@[simp] theorem setFpos_brand (f : Byte) : (setFpos f s).brand = s.brand := rfl
@[simp] theorem setFpos_res (f : Byte) : (setFpos f s).res = s.res := rfl
@[simp] theorem setFpos_cmd (f : Byte) : (setFpos f s).cmd = s.cmd := rfl
@[simp] theorem setFpos_csr (f : Byte) : (setFpos f s).csr = s.csr := rfl
@[simp] theorem setFpos_pout (f : Byte) : (setFpos f s).pout = s.pout := rfl
@[simp] theorem setFpos_pdir (f : Byte) : (setFpos f s).pdir = s.pdir := rfl
@[simp] theorem setFpos_fpos (f : Byte) : (setFpos f s).fpos = f := rfl
@[simp] theorem setFpos_trace (f : Byte) : (setFpos f s).trace = s.trace := rfl
@[simp] theorem setFpos_past (f : Byte) : (setFpos f s).past = s.past := rfl
@[simp] theorem setFpos_levels0 (f : Byte) : (setFpos f s).levels0 = s.levels0 := rfl
@[simp] theorem setFpos_levels1 (f : Byte) : (setFpos f s).levels1 = s.levels1 := rfl
@[simp] theorem setFpos_draws (f : Byte) : (setFpos f s).draws = s.draws := rfl
@[simp] theorem setFpos_inbox (f : Byte) : (setFpos f s).inbox = s.inbox := rfl
@[simp] theorem setFpos_readData (f : Byte) : (setFpos f s).readData = s.readData := rfl

/-! ### openTransaction -/

@[simp] theorem openTransaction_pad1 : (openTransaction s).pad1 = s.pad1 := rfl
@[simp] theorem openTransaction_pad2 : (openTransaction s).pad2 = s.pad2 := rfl
@[simp] theorem openTransaction_mouse1 : (openTransaction s).mouse1 = s.mouse1 := rfl
@[simp] theorem openTransaction_mouse2 : (openTransaction s).mouse2 = s.mouse2 := rfl
@[simp] theorem openTransaction_brand : (openTransaction s).brand = s.brand := rfl
@[simp] theorem openTransaction_res : (openTransaction s).res = s.res := rfl
@[simp] theorem openTransaction_cmd : (openTransaction s).cmd = s.cmd := rfl
@[simp] theorem openTransaction_csr : (openTransaction s).csr = s.csr := rfl
@[simp] theorem openTransaction_pout : (openTransaction s).pout = s.pout := rfl
@[simp] theorem openTransaction_pdir : (openTransaction s).pdir = s.pdir := rfl
@[simp] theorem openTransaction_fpos : (openTransaction s).fpos = s.fpos := rfl
@[simp] theorem openTransaction_trace : (openTransaction s).trace = [] := rfl
@[simp] theorem openTransaction_past : (openTransaction s).past = s.past ++ s.trace := rfl
@[simp] theorem openTransaction_levels0 : (openTransaction s).levels0 = s.levels0 := rfl
@[simp] theorem openTransaction_levels1 : (openTransaction s).levels1 = s.levels1 := rfl
@[simp] theorem openTransaction_draws : (openTransaction s).draws = s.draws := rfl
@[simp] theorem openTransaction_inbox : (openTransaction s).inbox = s.inbox := rfl
@[simp] theorem openTransaction_readData : (openTransaction s).readData = s.readData := rfl

/-! ### succeed -/

@[simp] theorem succeed_pad1 : (succeed s).pad1 = s.pad1 := rfl
@[simp] theorem succeed_pad2 : (succeed s).pad2 = s.pad2 := rfl
@[simp] theorem succeed_mouse1 : (succeed s).mouse1 = s.mouse1 := rfl
@[simp] theorem succeed_mouse2 : (succeed s).mouse2 = s.mouse2 := rfl
@[simp] theorem succeed_brand : (succeed s).brand = s.brand := rfl
@[simp] theorem succeed_res : (succeed s).res = s.res := rfl
@[simp] theorem succeed_cmd : (succeed s).cmd = s.cmd := rfl
@[simp] theorem succeed_csr : (succeed s).csr = { s.csr with err := 0 } := rfl
@[simp] theorem succeed_pout : (succeed s).pout = s.pout := rfl
@[simp] theorem succeed_pdir : (succeed s).pdir = s.pdir := rfl
@[simp] theorem succeed_fpos : (succeed s).fpos = s.fpos := rfl
@[simp] theorem succeed_trace : (succeed s).trace = s.trace := rfl
@[simp] theorem succeed_past : (succeed s).past = s.past := rfl
@[simp] theorem succeed_levels0 : (succeed s).levels0 = s.levels0 := rfl
@[simp] theorem succeed_levels1 : (succeed s).levels1 = s.levels1 := rfl
@[simp] theorem succeed_draws : (succeed s).draws = s.draws := rfl
@[simp] theorem succeed_inbox : (succeed s).inbox = s.inbox := rfl
@[simp] theorem succeed_readData : (succeed s).readData = s.readData := rfl

/-! ### refuseCommand -/

@[simp] theorem refuseCommand_pad1 (e : CmdError) : (refuseCommand e s).pad1 = s.pad1 := rfl
@[simp] theorem refuseCommand_pad2 (e : CmdError) : (refuseCommand e s).pad2 = s.pad2 := rfl
@[simp] theorem refuseCommand_mouse1 (e : CmdError) : (refuseCommand e s).mouse1 = s.mouse1 := rfl
@[simp] theorem refuseCommand_mouse2 (e : CmdError) : (refuseCommand e s).mouse2 = s.mouse2 := rfl
@[simp] theorem refuseCommand_brand (e : CmdError) : (refuseCommand e s).brand = s.brand := rfl
@[simp] theorem refuseCommand_res (e : CmdError) : (refuseCommand e s).res = s.res := rfl
@[simp] theorem refuseCommand_cmd (e : CmdError) : (refuseCommand e s).cmd = s.cmd := rfl
@[simp] theorem refuseCommand_csr (e : CmdError) : (refuseCommand e s).csr = { s.csr with err := errorCode e, errs := true } :=
  rfl
@[simp] theorem refuseCommand_pout (e : CmdError) : (refuseCommand e s).pout = s.pout := rfl
@[simp] theorem refuseCommand_pdir (e : CmdError) : (refuseCommand e s).pdir = s.pdir := rfl
@[simp] theorem refuseCommand_fpos (e : CmdError) : (refuseCommand e s).fpos = s.fpos := rfl
@[simp] theorem refuseCommand_trace (e : CmdError) : (refuseCommand e s).trace = [] := rfl
@[simp] theorem refuseCommand_past (e : CmdError) : (refuseCommand e s).past = s.past ++ s.trace :=
  rfl
@[simp] theorem refuseCommand_levels0 (e : CmdError) : (refuseCommand e s).levels0 = s.levels0 :=
  rfl
@[simp] theorem refuseCommand_levels1 (e : CmdError) : (refuseCommand e s).levels1 = s.levels1 :=
  rfl
@[simp] theorem refuseCommand_draws (e : CmdError) : (refuseCommand e s).draws = s.draws := rfl
@[simp] theorem refuseCommand_inbox (e : CmdError) : (refuseCommand e s).inbox = s.inbox := rfl
@[simp] theorem refuseCommand_readData (e : CmdError) : (refuseCommand e s).readData = s.readData :=
  rfl

/-! ### flushBody -/

@[simp] theorem flushBody_pad1 : (flushBody s).pad1 = 0 := rfl
@[simp] theorem flushBody_pad2 : (flushBody s).pad2 = 0 := rfl
@[simp] theorem flushBody_mouse1 : (flushBody s).mouse1 = .zero := rfl
@[simp] theorem flushBody_mouse2 : (flushBody s).mouse2 = .zero := rfl
@[simp] theorem flushBody_brand : (flushBody s).brand = 0 := rfl
@[simp] theorem flushBody_res : (flushBody s).res = s.res := rfl
@[simp] theorem flushBody_cmd : (flushBody s).cmd = s.cmd := rfl
@[simp] theorem flushBody_csr : (flushBody s).csr = { s.csr with brandv := false } := rfl
@[simp] theorem flushBody_pout : (flushBody s).pout = s.pout := rfl
@[simp] theorem flushBody_pdir : (flushBody s).pdir = s.pdir := rfl
@[simp] theorem flushBody_fpos : (flushBody s).fpos = s.fpos := rfl
@[simp] theorem flushBody_trace : (flushBody s).trace = s.trace := rfl
@[simp] theorem flushBody_past : (flushBody s).past = s.past := rfl
@[simp] theorem flushBody_levels0 : (flushBody s).levels0 = s.levels0 := rfl
@[simp] theorem flushBody_levels1 : (flushBody s).levels1 = s.levels1 := rfl
@[simp] theorem flushBody_draws : (flushBody s).draws = s.draws := rfl
@[simp] theorem flushBody_inbox : (flushBody s).inbox = s.inbox := rfl
@[simp] theorem flushBody_readData : (flushBody s).readData = s.readData := rfl

/-! ### setMouse -/

@[simp] theorem setMouse_pad1 (p : Port) (m : MouseState) : (setMouse p m s).pad1 = s.pad1 :=
  by cases p <;> rfl
@[simp] theorem setMouse_pad2 (p : Port) (m : MouseState) : (setMouse p m s).pad2 = s.pad2 :=
  by cases p <;> rfl
@[simp] theorem setMouse_brand (p : Port) (m : MouseState) : (setMouse p m s).brand = s.brand :=
  by cases p <;> rfl
@[simp] theorem setMouse_res (p : Port) (m : MouseState) : (setMouse p m s).res = s.res :=
  by cases p <;> rfl
@[simp] theorem setMouse_cmd (p : Port) (m : MouseState) : (setMouse p m s).cmd = s.cmd :=
  by cases p <;> rfl
@[simp] theorem setMouse_csr (p : Port) (m : MouseState) : (setMouse p m s).csr = s.csr :=
  by cases p <;> rfl
@[simp] theorem setMouse_pout (p : Port) (m : MouseState) : (setMouse p m s).pout = s.pout :=
  by cases p <;> rfl
@[simp] theorem setMouse_pdir (p : Port) (m : MouseState) : (setMouse p m s).pdir = s.pdir :=
  by cases p <;> rfl
@[simp] theorem setMouse_fpos (p : Port) (m : MouseState) : (setMouse p m s).fpos = s.fpos :=
  by cases p <;> rfl
@[simp] theorem setMouse_trace (p : Port) (m : MouseState) : (setMouse p m s).trace = s.trace :=
  by cases p <;> rfl
@[simp] theorem setMouse_past (p : Port) (m : MouseState) : (setMouse p m s).past = s.past :=
  by cases p <;> rfl
@[simp] theorem setMouse_levels0 (p : Port) (m : MouseState) : (setMouse p m s).levels0 = s.levels0 :=
  by cases p <;> rfl
@[simp] theorem setMouse_levels1 (p : Port) (m : MouseState) : (setMouse p m s).levels1 = s.levels1 :=
  by cases p <;> rfl
@[simp] theorem setMouse_draws (p : Port) (m : MouseState) : (setMouse p m s).draws = s.draws :=
  by cases p <;> rfl
@[simp] theorem setMouse_inbox (p : Port) (m : MouseState) : (setMouse p m s).inbox = s.inbox :=
  by cases p <;> rfl
@[simp] theorem setMouse_readData (p : Port) (m : MouseState) : (setMouse p m s).readData = s.readData :=
  by cases p <;> rfl

/-! ### afterSample -/

@[simp] theorem afterSample_pad1 (l : Line) : (afterSample l s).pad1 = s.pad1 :=
  by cases l <;> rfl
@[simp] theorem afterSample_pad2 (l : Line) : (afterSample l s).pad2 = s.pad2 :=
  by cases l <;> rfl
@[simp] theorem afterSample_mouse1 (l : Line) : (afterSample l s).mouse1 = s.mouse1 :=
  by cases l <;> rfl
@[simp] theorem afterSample_mouse2 (l : Line) : (afterSample l s).mouse2 = s.mouse2 :=
  by cases l <;> rfl
@[simp] theorem afterSample_brand (l : Line) : (afterSample l s).brand = s.brand :=
  by cases l <;> rfl
@[simp] theorem afterSample_res (l : Line) : (afterSample l s).res = s.res := by cases l <;> rfl
@[simp] theorem afterSample_cmd (l : Line) : (afterSample l s).cmd = s.cmd := by cases l <;> rfl
@[simp] theorem afterSample_csr (l : Line) : (afterSample l s).csr = s.csr := by cases l <;> rfl
@[simp] theorem afterSample_pout (l : Line) : (afterSample l s).pout = s.pout :=
  by cases l <;> rfl
@[simp] theorem afterSample_pdir (l : Line) : (afterSample l s).pdir = s.pdir :=
  by cases l <;> rfl
@[simp] theorem afterSample_fpos (l : Line) : (afterSample l s).fpos = s.fpos :=
  by cases l <;> rfl
@[simp] theorem afterSample_trace (l : Line) : (afterSample l s).trace = s.trace ++ [.s l] :=
  by cases l <;> rfl
@[simp] theorem afterSample_past (l : Line) : (afterSample l s).past = s.past :=
  by cases l <;> rfl
@[simp] theorem afterSample_draws (l : Line) : (afterSample l s).draws = s.draws + 1 :=
  by cases l <;> rfl
@[simp] theorem afterSample_inbox (l : Line) : (afterSample l s).inbox = s.inbox :=
  by cases l <;> rfl
@[simp] theorem afterSample_readData (l : Line) : (afterSample l s).readData = s.readData :=
  by cases l <;> rfl

/-! ### By port and by line -/

@[simp] theorem setMouse_mouse_same (p : Port) (m : MouseState) : (setMouse p m s).mouse p = m := by
  cases p <;> rfl

theorem setMouse_mouse_other (p q : Port) (m : MouseState) (h : q ≠ p) :
    (setMouse p m s).mouse q = s.mouse q := by
  cases p <;> cases q <;> first | rfl | exact absurd rfl h

@[simp] theorem afterSample_levels_same (l : Line) :
    (afterSample l s).levels l = (s.levels l).drop 1 := by cases l <;> rfl

theorem afterSample_levels_other (l k : Line) (h : k ≠ l) :
    (afterSample l s).levels k = s.levels k := by
  cases l <;> cases k <;> first | rfl | exact absurd rfl h

@[simp] theorem afterSample_l0_levels0 : (afterSample .l0 s).levels0 = s.levels0.drop 1 := rfl
@[simp] theorem afterSample_l0_levels1 : (afterSample .l0 s).levels1 = s.levels1 := rfl
@[simp] theorem afterSample_l1_levels0 : (afterSample .l1 s).levels0 = s.levels0 := rfl
@[simp] theorem afterSample_l1_levels1 : (afterSample .l1 s).levels1 = s.levels1.drop 1 := rfl
@[simp] theorem levels_l0 : s.levels .l0 = s.levels0 := rfl
@[simp] theorem levels_l1 : s.levels .l1 = s.levels1 := rfl
@[simp] theorem pad_p1 : s.pad .p1 = s.pad1 := rfl
@[simp] theorem pad_p2 : s.pad .p2 = s.pad2 := rfl
@[simp] theorem mouse_p1 : s.mouse .p1 = s.mouse1 := rfl
@[simp] theorem mouse_p2 : s.mouse .p2 = s.mouse2 := rfl

end Sys2Proof.Machine
end

