-- ==== Sys2Proof/Laws/Ops.lean ====
section
/-! SUPPORT. For each shared operation, what it can do, said once: the whole state after it, and the
values it reads. Later proofs cite these and unfold nothing. -/

namespace Sys2Proof.Machine

/-! ### Lists of events -/

@[simp] theorem copies_zero (es : List Event) : copies 0 es = [] := rfl

theorem copies_succ (n : Nat) (es : List Event) : copies (n + 1) es = es ++ copies n es := by
  simp [copies, List.replicate_succ]

/-! ### Pulses and samples -/

theorem latchPulse_eq (s : State) :
    latchPulse s =
      { s with pout := 0x08, fpos := fposLatched, trace := s.trace ++ latchEvents } := by
  simp [latchPulse, portWrite, setFpos, emit, latchEvents]

theorem clockPulse_eq (s : State) :
    clockPulse s =
      { s with pout := 0x08, fpos := fposClocked s.fpos, trace := s.trace ++ clockEvents } := by
  simp [clockPulse, portWrite, setFpos, emit, clockEvents]

theorem afterSample_l0_eq (s : State) :
    afterSample .l0 s =
      { s with levels0 := s.levels0.drop 1, draws := s.draws + 1, trace := s.trace ++ [.s .l0] } :=
  rfl

theorem afterSample_l1_eq (s : State) :
    afterSample .l1 s =
      { s with levels1 := s.levels1.drop 1, draws := s.draws + 1, trace := s.trace ++ [.s .l1] } :=
  rfl

/-- Where the environment has a level ready, that is what the sample returns. -/
theorem rawLevel_ready (l : Line) (s : State) (b : Bool) (rest : List Bool)
    (h : s.levels l = b :: rest) : rawLevel l s = b := by
  simp [rawLevel, h]

/-- Where it has none, the sample is the free value. -/
theorem rawLevel_free (l : Line) (s : State) (h : s.levels l = []) :
    rawLevel l s = Config.smp s.draws (s.past ++ s.trace ++ [.s l]) l := by
  simp [rawLevel, h]

theorem sampleBoth_state (m : Masks) (s : State) :
    (sampleBoth m s).2 =
      { s with levels0 := s.levels0.drop 1, levels1 := s.levels1.drop 1, draws := s.draws + 2,
               trace := s.trace ++ [.s .l0, .s .l1] } := by
  simp [sampleBoth, afterSample_l0_eq, afterSample_l1_eq]

/-! ### FPOS -/

/-- `n` clock pulses' worth of `fposClocked`. -/
def fposAfter : Nat → Byte → Byte
  | 0, f => f
  | n + 1, f => fposAfter n (fposClocked f)

theorem fposAfter_frame : fposAfter 15 fposLatched = fposAfterFrame := by decide +kernel

theorem fposAfter_mouse : fposAfter 16 fposAfterFrame = 0x9F := by decide +kernel

/-! ### The frame reader -/

theorem clockAndSample_state (n : Nat) (m : Masks) (s : State) :
    (clockAndSample n m s).2 =
      { s with pout := if n = 0 then s.pout else 0x08, fpos := fposAfter n s.fpos,
               levels0 := s.levels0.drop n, levels1 := s.levels1.drop n,
               draws := s.draws + 2 * n,
               trace := s.trace ++ copies n (clockEvents ++ [.s .l0, .s .l1]) } := by
  induction n generalizing m s with
  | zero => simp [clockAndSample, fposAfter]
  | succ n ih =>
    rw [clockAndSample, ih, sampleBoth_state, clockPulse_eq]
    simp [fposAfter, copies_succ, Nat.add_comm, Nat.mul_add, Nat.add_assoc]

/-- The whole state after FRAME16, in every environment. -/
theorem frame16_state (s : State) :
    (frame16 s).2 =
      { s with pout := 0x08, fpos := fposAfterFrame, levels0 := s.levels0.drop 16,
               levels1 := s.levels1.drop 16, draws := s.draws + 32,
               trace := s.trace ++ frame16Events } := by
  rw [frame16, readFrame, clockAndSample_state, sampleBoth_state, latchPulse_eq]
  simp [frame16Events, fposAfter_frame]

/-- The mask of line 0 is the fold of the levels ready on it. -/
theorem clockAndSample_m1 (n : Nat) (m : Masks) (s : State) (h : n ≤ s.levels0.length) :
    (clockAndSample n m s).1.m1 = (s.levels0.take n).foldl shiftIntoMask m.m1 := by
  induction n generalizing m s with
  | zero => simp [clockAndSample]
  | succ n ih =>
    obtain ⟨b, rest, hl⟩ : ∃ b rest, s.levels0 = b :: rest :=
      List.exists_cons_of_ne_nil (by intro hn; simp [hn] at h)
    rw [clockAndSample, ih _ _ (by simp [sampleBoth_state, clockPulse_eq]; omega)]
    simp [sampleBoth, clockPulse_eq, afterSample_l0_eq, afterSample_l1_eq, hl, rawLevel]

/-- The mask of line 1 is the fold of the levels ready on it. -/
theorem clockAndSample_m2 (n : Nat) (m : Masks) (s : State) (h : n ≤ s.levels1.length) :
    (clockAndSample n m s).1.m2 = (s.levels1.take n).foldl shiftIntoMask m.m2 := by
  induction n generalizing m s with
  | zero => simp [clockAndSample]
  | succ n ih =>
    obtain ⟨b, rest, hl⟩ : ∃ b rest, s.levels1 = b :: rest :=
      List.exists_cons_of_ne_nil (by intro hn; simp [hn] at h)
    rw [clockAndSample, ih _ _ (by simp [sampleBoth_state, clockPulse_eq]; omega)]
    simp [sampleBoth, clockPulse_eq, afterSample_l0_eq, hl, rawLevel]

theorem readFrame_m1 (n : Nat) (s : State) (hn : 0 < n) (h : n ≤ s.levels0.length) :
    (readFrame n s).1.m1 = (s.levels0.take n).foldl shiftIntoMask 0 := by
  obtain ⟨b, rest, hl⟩ : ∃ b rest, s.levels0 = b :: rest :=
    List.exists_cons_of_ne_nil (by intro e; simp [e] at h; omega)
  obtain ⟨k, rfl⟩ : ∃ k, n = k + 1 := ⟨n - 1, by omega⟩
  rw [readFrame, clockAndSample_m1 _ _ _ (by simp [sampleBoth_state, latchPulse_eq]; omega)]
  simp [sampleBoth, latchPulse_eq, afterSample_l0_eq, afterSample_l1_eq, hl, rawLevel, Masks.zero]

theorem readFrame_m2 (n : Nat) (s : State) (hn : 0 < n) (h : n ≤ s.levels1.length) :
    (readFrame n s).1.m2 = (s.levels1.take n).foldl shiftIntoMask 0 := by
  obtain ⟨b, rest, hl⟩ : ∃ b rest, s.levels1 = b :: rest :=
    List.exists_cons_of_ne_nil (by intro e; simp [e] at h; omega)
  obtain ⟨k, rfl⟩ : ∃ k, n = k + 1 := ⟨n - 1, by omega⟩
  rw [readFrame, clockAndSample_m2 _ _ _ (by simp [sampleBoth_state, latchPulse_eq]; omega)]
  simp [sampleBoth, latchPulse_eq, afterSample_l0_eq, hl, rawLevel, Masks.zero]

/-- One step of the frame accumulation, bit by bit. -/
theorem shiftIntoMask_bit (m : Word) (b : Bool) (k : Nat) (hk : k < 16) :
    (shiftIntoMask m b).getLsbD k = if k = 15 then !b else m.getLsbD (k + 1) := by
  interval_cases k <;> cases b <;> simp [shiftIntoMask, logicalBit, Nat.add_comm]

/-- Where the levels of a frame read end in the mask (spec/41_frame_reader.md R162, R169). -/
theorem foldl_shiftIntoMask_bit (ls : List Bool) (m : Word) (hn : ls.length ≤ 16) (k : Nat)
    (hk : k < 16) :
    (ls.foldl shiftIntoMask m).getLsbD k =
      if k + ls.length < 16 then m.getLsbD (k + ls.length)
      else !(ls.getD (k + ls.length - 16) true) := by
  induction ls generalizing m with
  | nil => simp [hk]
  | cons b bs ih =>
    simp only [List.length_cons] at hn
    rw [List.foldl_cons, ih _ (by omega)]
    by_cases h1 : k + bs.length < 15
    · have h2 : k + bs.length < 16 := by omega
      have h3 : k + (b :: bs).length < 16 := by simp; omega
      rw [if_pos h2, if_pos h3, shiftIntoMask_bit _ _ _ h2, if_neg (by omega)]
      simp [Nat.add_assoc]
    · have h3 : ¬ (k + (b :: bs).length < 16) := by simp; omega
      rw [if_neg h3]
      by_cases h2 : k + bs.length = 15
      · have e : k + (b :: bs).length - 16 = 0 := by simp; omega
        rw [if_pos (by omega), shiftIntoMask_bit _ _ _ (by omega), if_pos h2, e]
        simp
      · have e : k + (b :: bs).length - 16 = (k + bs.length - 16) + 1 := by simp; omega
        rw [if_neg (by omega), e]
        simp

/-! ### READ8 -/

/-- The state after `n` bits of READ8, in every environment. -/
theorem readBits_state (l : Line) (n : Nat) (acc : Byte) (s : State) :
    (readBits l n acc s).2 =
      { s with pout := if n = 0 then s.pout else 0x08, fpos := fposAfter n s.fpos,
               levels0 := if l = .l0 then s.levels0.drop n else s.levels0,
               levels1 := if l = .l1 then s.levels1.drop n else s.levels1,
               draws := s.draws + n,
               trace := s.trace ++ copies n (clockEvents ++ [.d .settle, .s l]) } := by
  induction n generalizing acc s with
  | zero => simp [readBits, fposAfter]
  | succ n ih =>
    cases l <;>
    · rw [readBits, ih]
      simp [clockPulse_eq, delay, emit, afterSample_l0_eq, afterSample_l1_eq, fposAfter,
        copies_succ]
      omega

/-- The byte is the fold of the levels ready on the line. -/
theorem readBits_value (l : Line) (n : Nat) (acc : Byte) (s : State)
    (h : n ≤ (s.levels l).length) :
    (readBits l n acc s).1 = ((s.levels l).take n).foldl shiftIntoByte acc := by
  induction n generalizing acc s with
  | zero => simp [readBits]
  | succ n ih =>
    obtain ⟨b, rest, hl⟩ : ∃ b rest, s.levels l = b :: rest :=
      List.exists_cons_of_ne_nil (by intro e; simp [e] at h)
    have hlev : (delay .settle (clockPulse s)).levels l = b :: rest := by
      cases l <;> simpa [clockPulse_eq] using hl
    rw [readBits, ih _ _ (by rw [afterSample_levels_same, hlev]; simp [hl] at h; simpa using h),
      rawLevel_ready _ _ _ _ hlev, afterSample_levels_same, hlev, hl]
    simp

/-- One step of the READ8 accumulation, bit by bit. -/
theorem shiftIntoByte_bit (acc : Byte) (b : Bool) (k : Nat) (hk : k < 8) :
    (shiftIntoByte acc b).getLsbD k = if k = 0 then !b else acc.getLsbD (k - 1) := by
  interval_cases k <;> cases b <;> simp [shiftIntoByte, logicalBit]

/-- Where the levels of a READ8 end in the byte (spec/43_mouse_decoder.md R191). -/
theorem foldl_shiftIntoByte_bit (ls : List Bool) (acc : Byte) (hn : ls.length ≤ 8) (k : Nat)
    (hk : k < 8) :
    (ls.foldl shiftIntoByte acc).getLsbD k =
      if k < ls.length then !(ls.getD (ls.length - 1 - k) true)
      else acc.getLsbD (k - ls.length) := by
  induction ls generalizing acc with
  | nil => simp
  | cons b bs ih =>
    simp only [List.length_cons] at hn
    rw [List.foldl_cons, ih _ (by omega)]
    by_cases h1 : k < bs.length
    · have e : (b :: bs).length - 1 - k = (bs.length - 1 - k) + 1 := by simp; omega
      rw [if_pos h1, if_pos (by simp; omega), e]
      simp
    · rw [if_neg h1, shiftIntoByte_bit _ _ _ (by omega)]
      by_cases h2 : k = bs.length
      · subst h2
        simp
      · rw [if_neg (by omega), if_neg (by simp; omega)]
        congr 1

/-- The state after READ8. -/
theorem read8_state (l : Line) (s : State) :
    (read8 l s).2 =
      { s with pout := 0x08, fpos := fposAfter 8 s.fpos,
               levels0 := if l = .l0 then s.levels0.drop 8 else s.levels0,
               levels1 := if l = .l1 then s.levels1.drop 8 else s.levels1,
               draws := s.draws + 8, trace := s.trace ++ read8Events l } := by
  rw [read8, readBits_state]; rfl

/-! ### What is sampled, in every environment -/

/-- A sample taken after the events `tr` have been added since `s`: the level the environment has ready at
that place, else the free value. -/
theorem rawLevel_since (l : Line) (s u : State) (tr : List Event)
    (hl : u.levels l = (s.levels l).drop (samplesOf l tr)) (hd : u.draws = s.draws + samples tr)
    (hp : u.past ++ u.trace = s.past ++ s.trace ++ tr) :
    rawLevel l u =
      (s.levels l)[samplesOf l tr]?.getD
        (Config.smp (s.draws + samples tr) (s.past ++ s.trace ++ (tr ++ [.s l])) l) := by
  unfold rawLevel
  rw [hl, hd, hp]
  rcases h : (s.levels l).drop (samplesOf l tr) with _ | ⟨b, rest⟩
  · have : (s.levels l)[samplesOf l tr]? = none := by
      rw [← List.head?_drop, h]; rfl
    simp [this]
  · have : (s.levels l)[samplesOf l tr]? = some b := by
      rw [← List.head?_drop, h]; rfl
    simp [this]

/-- The last pulse and sample of a frame read, seen from the end. -/
theorem clockAndSample_snoc (n : Nat) (m : Masks) (s : State) :
    clockAndSample (n + 1) m s =
      sampleBoth (clockAndSample n m s).1 (clockPulse (clockAndSample n m s).2) := by
  induction n generalizing m s with
  | zero => rfl
  | succ n ih => rw [clockAndSample, ih]; rfl

/-- The mask of line 0 is the fold of the levels sampled on it. -/
theorem clockAndSample_m1_fold (n : Nat) (m : Masks) (s : State) :
    (clockAndSample n m s).1.m1 =
      ((List.range n).map fun j => rawLevel .l0 (clockPulse (clockAndSample j m s).2)).foldl
        shiftIntoMask m.m1 := by
  induction n with
  | zero => rfl
  | succ n ih =>
    rw [clockAndSample_snoc, List.range_succ, List.map_append, List.foldl_append, ← ih]
    rfl

/-- The mask of line 1 is the fold of the levels sampled on it. -/
theorem clockAndSample_m2_fold (n : Nat) (m : Masks) (s : State) :
    (clockAndSample n m s).1.m2 =
      ((List.range n).map fun j =>
        rawLevel .l1 (afterSample .l0 (clockPulse (clockAndSample j m s).2))).foldl
        shiftIntoMask m.m2 := by
  induction n with
  | zero => rfl
  | succ n ih =>
    rw [clockAndSample_snoc, List.range_succ, List.map_append, List.foldl_append, ← ih]
    rfl

/-- The last bit of READ8, seen from the end. -/
theorem readBits_snoc (l : Line) (n : Nat) (acc : Byte) (s : State) :
    readBits l (n + 1) acc s =
      (shiftIntoByte (readBits l n acc s).1
        (rawLevel l (delay .settle (clockPulse (readBits l n acc s).2))),
       afterSample l (delay .settle (clockPulse (readBits l n acc s).2))) := by
  induction n generalizing acc s with
  | zero => rfl
  | succ n ih => rw [readBits, ih]; rfl

/-- The byte is the fold of the levels sampled. -/
theorem readBits_fold (l : Line) (n : Nat) (acc : Byte) (s : State) :
    (readBits l n acc s).1 =
      ((List.range n).map fun j =>
        rawLevel l (delay .settle (clockPulse (readBits l j acc s).2))).foldl shiftIntoByte acc := by
  induction n with
  | zero => rfl
  | succ n ih =>
    rw [readBits_snoc, List.range_succ, List.map_append, List.foldl_append, ← ih]
    rfl

/-! ### Commands -/

/-- What a command can do: it is refused with no effect but the code, or its body runs. -/
theorem runCommand_cases (check : State → Option CmdError) (body : State → State) (s t : State)
    (h : runCommand check body s = .next t) :
    (∃ e, check s = some e ∧ t = refuseCommand e s) ∨
    (check s = none ∧ t = succeed (body (openTransaction s))) := by
  unfold runCommand at h
  split at h
  · next e he => exact .inl ⟨e, he, by injection h with h; exact h.symm⟩
  · next he => exact .inr ⟨he, by injection h with h; exact h.symm⟩

theorem runCommand_refused (check : State → Option CmdError) (body : State → State) (s : State)
    (e : CmdError) (h : check s = some e) :
    runCommand check body s = .next (refuseCommand e s) := by
  simp [runCommand, h]

theorem runCommand_runs (check : State → Option CmdError) (body : State → State) (s : State)
    (h : check s = none) : runCommand check body s = .next (succeed (body (openTransaction s))) := by
  simp [runCommand, h]

@[simp] theorem checkNone_eq (s : State) : checkNone s = none := rfl

theorem checkInit_ready (s : State) (h : s.csr.initd = true) : checkInit s = none := by
  simp [checkInit, h]

theorem checkInit_notinit (s : State) (h : s.csr.initd = false) :
    checkInit s = some .notinit := by simp [checkInit, h]

theorem checkSeq_ready (s : State) (h : s.csr.initd = true) (hf : s.fpos = fposAfterFrame) :
    checkSeq s = none := by simp [checkSeq, h, hf]

theorem checkSeq_notinit (s : State) (h : s.csr.initd = false) :
    checkSeq s = some .notinit := by simp [checkSeq, h]

theorem checkSeq_seq (s : State) (h : s.csr.initd = true) (hf : s.fpos ≠ fposAfterFrame) :
    checkSeq s = some .seq := by simp [checkSeq, h, hf]

end Sys2Proof.Machine
end

