-- ==== Sys2Proof/Laws/Commands.lean ====
section
/-! SUPPORT. The shared operations a level above Laws/Ops.lean: the environment's position inside a
transaction (`Since`), the two frame reads, the sensitivity sequence, the bytes of CMD, what a host write
and a step can do. Each says once everything its operation does. -/

namespace Sys2Proof.Machine

/-! ### The environment's position inside a transaction -/

/-- Between `s` and `u` exactly the events `es` have been added, and exactly their samples' answers and
draws have been used up. -/
def Since (s u : State) (es : List Event) : Prop :=
  (∀ l, u.levels l = (s.levels l).drop (samplesOf l es)) ∧ u.draws = s.draws + samples es ∧
    u.past ++ u.trace = s.past ++ s.trace ++ es

theorem samplesOf_append (l : Line) (a b : List Event) :
    samplesOf l (a ++ b) = samplesOf l a + samplesOf l b := by simp [samplesOf]

theorem samples_append (a b : List Event) : samples (a ++ b) = samples a + samples b := by
  simp [samples, samplesOf]
  omega

theorem samplesOf_copies (l : Line) (n : Nat) (es : List Event) :
    samplesOf l (copies n es) = n * samplesOf l es := by
  induction n with
  | zero => simp [samplesOf]
  | succ n ih => rw [copies_succ, samplesOf_append, ih]; ring

theorem samples_copies (n : Nat) (es : List Event) : samples (copies n es) = n * samples es := by
  simp [samples, samplesOf_copies]
  ring

theorem length_copies (n : Nat) (es : List Event) : (copies n es).length = n * es.length := by
  induction n with
  | zero => simp
  | succ n ih => simp [copies_succ, ih]; ring

/-- The duration bound of two stretches of events is the sum of theirs. -/
theorem minDuration_append (t : Timing) (a b : List Event) :
    minDuration t (a ++ b) = minDuration t a + minDuration t b := by
  simp [minDuration, latchPulses, clockPulses]
  ring

theorem minDuration_copies (t : Timing) (n : Nat) (es : List Event) :
    minDuration t (copies n es) = n * minDuration t es := by
  induction n with
  | zero => simp [minDuration, latchPulses, clockPulses]
  | succ n ih => rw [copies_succ, minDuration_append, ih]; push_cast; ring

/-- The `j`-th copy seen inside `n` copies. -/
theorem copies_split (n j : Nat) (es : List Event) (h : j < n) :
    ∃ post, copies n es = copies j es ++ (es ++ post) := by
  induction n generalizing j with
  | zero => omega
  | succ n ih =>
    cases j with
    | zero => exact ⟨copies n es, by simp [copies_succ]⟩
    | succ j =>
      obtain ⟨post, hp⟩ := ih j (by omega)
      exact ⟨post, by simp [copies_succ, hp]⟩

theorem since_openTransaction (s : State) : Since s (openTransaction s) [] := by
  refine ⟨fun l => ?_, ?_, ?_⟩ <;> simp [samples, samplesOf]
  cases l <;> rfl

/-- One more stretch of events. -/
theorem since_append {s u v : State} {es fs : List Event} (h : Since s u es)
    (hl : ∀ l, v.levels l = (u.levels l).drop (samplesOf l fs)) (hd : v.draws = u.draws + samples fs)
    (hp : v.past = u.past) (ht : v.trace = u.trace ++ fs) : Since s v (es ++ fs) := by
  refine ⟨fun l => ?_, ?_, ?_⟩
  · rw [hl, h.1, List.drop_drop, samplesOf_append]
  · rw [hd, h.2.1, samples_append]; omega
  · rw [hp, ht, ← List.append_assoc, h.2.2]; simp

/-- The level sampled next. -/
theorem rawLevel_of_since {s u : State} {es : List Event} (h : Since s u es) (l : Line) :
    rawLevel l u =
      (s.levels l)[samplesOf l es]?.getD
        (Config.smp (s.draws + samples es) (s.past ++ s.trace ++ (es ++ [.s l])) l) :=
  rawLevel_since l s u es (h.1 l) h.2.1 h.2.2

theorem since_clockPulse {s u : State} {es : List Event} (h : Since s u es) :
    Since s (clockPulse u) (es ++ clockEvents) := by
  refine since_append h ?_ ?_ ?_ ?_ <;> simp [clockPulse_eq, clockEvents, samples, samplesOf]
  intro l; cases l <;> rfl

theorem since_latchPulse {s u : State} {es : List Event} (h : Since s u es) :
    Since s (latchPulse u) (es ++ latchEvents) := by
  refine since_append h ?_ ?_ ?_ ?_ <;> simp [latchPulse_eq, latchEvents, samples, samplesOf]
  intro l; cases l <;> rfl

theorem since_delay {s u : State} {es : List Event} (h : Since s u es) (k : Delay) :
    Since s (delay k u) (es ++ [.d k]) := by
  refine since_append h ?_ ?_ ?_ ?_ <;> simp [samples, samplesOf]
  intro l; cases l <;> rfl

theorem since_afterSample {s u : State} {es : List Event} (h : Since s u es) (l : Line) :
    Since s (afterSample l u) (es ++ [.s l]) := by
  refine since_append h ?_ ?_ ?_ ?_ <;> cases l <;> simp [samples, samplesOf]
  · intro l; cases l <;> simp [State.levels]
  · intro l; cases l <;> simp [State.levels]

theorem since_sampleBoth {s u : State} {es : List Event} (h : Since s u es) (m : Masks) :
    Since s (sampleBoth m u).2 (es ++ [.s .l0, .s .l1]) := by
  have := since_afterSample (since_afterSample h .l0) .l1
  rw [List.append_assoc] at this
  exact this

theorem since_clockAndSample {s u : State} {es : List Event} (h : Since s u es) (n : Nat)
    (m : Masks) : Since s (clockAndSample n m u).2 (es ++ copies n (clockEvents ++ [.s .l0, .s .l1])) := by
  refine since_append h ?_ ?_ ?_ ?_ <;> simp [clockAndSample_state]
  · intro l; rw [samplesOf_copies]; cases l <;> simp [State.levels, clockEvents, samplesOf]
  · rw [samples_copies]; simp [clockEvents, samples, samplesOf]; ring

theorem since_readBits {s u : State} {es : List Event} (h : Since s u es) (l : Line) (n : Nat)
    (acc : Byte) :
    Since s (readBits l n acc u).2 (es ++ copies n (clockEvents ++ [.d .settle, .s l])) := by
  refine since_append h ?_ ?_ ?_ ?_ <;> simp [readBits_state]
  · intro k; rw [samplesOf_copies]; cases l <;> cases k <;> simp [State.levels, clockEvents, samplesOf]
  · rw [samples_copies]; cases l <;> simp [clockEvents, samples, samplesOf]

/-! ### Whole reads -/

theorem fposAfter_add (a b : Nat) (f : Byte) : fposAfter a (fposAfter b f) = fposAfter (b + a) f := by
  induction b generalizing f with
  | zero => simp [fposAfter]
  | succ b ih => rw [fposAfter, ih, Nat.succ_add]; rfl

theorem mouseEvents_eq (l : Line) : mouseEvents l = read8Events l ++ read8Events l := by
  cases l <;> decide +kernel

/-- FRAME16 into the two PADs. -/
theorem framePads_eq (s : State) :
    framePads s =
      { s with pad1 := (frame16 s).1.m1, pad2 := (frame16 s).1.m2, pout := 0x08,
               fpos := fposAfterFrame, levels0 := s.levels0.drop 16, levels1 := s.levels1.drop 16,
               draws := s.draws + 32, trace := s.trace ++ frame16Events } := by
  simp [framePads, setPads, frame16_state]

/-- The raw Y byte RDMOUSE's body reads in `s`. -/
def yByte (p : Port) (s : State) : Byte := (read8 (lineOfPort p) s).1

/-- The raw X byte RDMOUSE's body reads in `s`. -/
def xByte (p : Port) (s : State) : Byte := (read8 (lineOfPort p) (read8 (lineOfPort p) s).2).1

/-- RDMOUSE's body: its raw Y byte and the whole state after it. -/
theorem rdmouseBody_eq (p : Port) (s : State) :
    rdmouseBody p s =
      (yByte p s,
       { s with
         mouse1 := if p = .p1 then decodeMouse (yByte p s) (xByte p s) s.pad1 else s.mouse1,
         mouse2 := if p = .p2 then decodeMouse (yByte p s) (xByte p s) s.pad2 else s.mouse2,
         res := (decodeMouse (yByte p s) (xByte p s) (s.pad p)).mstat.setWidth 16,
         pout := 0x08, fpos := fposAfter 16 s.fpos,
         levels0 := s.levels0.drop (if p = .p1 then 16 else 0),
         levels1 := s.levels1.drop (if p = .p2 then 16 else 0), draws := s.draws + 16,
         trace := s.trace ++ mouseEvents (lineOfPort p) }) := by
  cases p <;>
    simp [rdmouseBody, yByte, xByte, setMouse, setRes, read8_state, lineOfPort, State.pad,
      fposAfter_add, mouseEvents_eq]

theorem since_framePads {s u : State} {es : List Event} (h : Since s u es) :
    Since s (framePads u) (es ++ frame16Events) := by
  refine since_append h ?_ ?_ ?_ ?_ <;> rw [framePads_eq]
  · intro l; cases l <;> rfl
  · rfl

theorem since_rdmouseBody {s u : State} {es : List Event} (h : Since s u es) (p : Port) :
    Since s (rdmouseBody p u).2 (es ++ mouseEvents (lineOfPort p)) := by
  refine since_append h ?_ ?_ ?_ ?_ <;> rw [rdmouseBody_eq]
  · intro l; cases l <;> cases p <;> rfl
  · cases p <;> rfl

/-! ### The sensitivity sequence -/

/-- A pulse repeated: `f` brings POUT to the idle level, moves FPOS by `g` and adds the events `es`. -/
theorem times_pulse (n : Nat) (f : State → State) (es : List Event) (g : Byte → Byte)
    (hf : ∀ s, f s = { s with pout := 0x08, fpos := g s.fpos, trace := s.trace ++ es }) (s : State)
    (hs : s.pout = 0x08) :
    times n f s =
      { s with pout := 0x08, fpos := g^[n] s.fpos, trace := s.trace ++ copies n es } := by
  induction n generalizing s with
  | zero => simp [times, ← hs]
  | succ n ih => rw [times, ih _ (by rw [hf]), hf]; simp [copies_succ]

theorem setsensBody_eq (s : State) :
    setsensBody s =
      { s with res := Config.sensStatus.setWidth 16, pout := 0x08, fpos := 0x00,
               trace := s.trace ++ setsensEvents } := by
  simp only [setsensBody]
  rw [times_pulse 15 _ (clockEvents ++ [.d .settle]) fposClocked
      (by intro s; simp [clockPulse_eq, delay, emit]) _ (by simp [latchPulse_eq]),
    times_pulse 31 _ (latchEvents ++ [.d .sensGap]) (fun _ => fposLatched)
      (by intro s; simp [latchPulse_eq, delay, emit]) _ (by simp)]
  simp only [setRes, setFpos, fposUnknown, latchPulse_eq, setsensEvents, delay, emit,
    List.append_assoc]

/-! ### The bytes of CMD -/

theorem joinBytes_toNat (hi lo : Byte) : (joinBytes hi lo).toNat = hi.toNat * 256 + lo.toNat := by
  unfold joinBytes
  rw [show ((hi ++ lo : BitVec (8 + 8)) : Word).toNat = hi.toNat <<< 8 ||| lo.toNat from
    BitVec.toNat_append _ _, ← Nat.shiftLeft_add_eq_or_of_lt lo.isLt, Nat.shiftLeft_eq]

@[simp] theorem lowByte_joinBytes (hi lo : Byte) : lowByte (joinBytes hi lo) = lo := by
  apply BitVec.eq_of_toNat_eq
  simp [lowByte, joinBytes_toNat]
  exact lo.isLt

@[simp] theorem highByte_joinBytes (hi lo : Byte) : highByte (joinBytes hi lo) = hi := by
  apply BitVec.eq_of_toNat_eq
  simp [highByte, joinBytes_toNat, Nat.shiftRight_eq_div_pow]
  omega

@[simp] theorem joinBytes_halves (w : Word) : joinBytes (highByte w) (lowByte w) = w := by
  apply BitVec.eq_of_toNat_eq
  simp [joinBytes_toNat, highByte, lowByte, Nat.shiftRight_eq_div_pow]
  omega

/-! ### Host writes -/

/-- What a host write can do: change the low byte of CMD, issue the word it completes, or nothing. -/
theorem hostWrite_cases (off : Offset) (v : Byte) (s : State) :
    (off = 0x00 ∧ hostWrite off v s = .next { s with cmd := joinBytes (highByte s.cmd) v }) ∨
    (off = 0x01 ∧ hostWrite off v s = issue { s with cmd := joinBytes v (lowByte s.cmd) }) ∨
    (off ≠ 0x00 ∧ off ≠ 0x01 ∧ hostWrite off v s = .next s) := by
  unfold hostWrite
  by_cases h0 : off = 0x00
  · exact .inl ⟨h0, if_pos h0⟩
  · rw [if_neg h0]
    by_cases h1 : off = 0x01
    · exact .inr (.inl ⟨h1, if_pos h1⟩)
    · exact .inr (.inr ⟨h0, h1, if_neg h1⟩)

/-- What an issued word can do: run the command it decodes to, or be refused. -/
theorem issue_cases (s : State) :
    (∃ i, decode s.cmd = .ok i ∧ issue s = exec i s) ∨
    (∃ e, decode s.cmd = .error e ∧ issue s = .next (refuseCommand e s)) := by
  unfold issue
  cases h : decode s.cmd with
  | ok i => exact .inl ⟨i, rfl, rfl⟩
  | error e => exact .inr ⟨e, rfl, rfl⟩

/-- The step takes the oldest input. -/
theorem step_of_inbox (s : State) (i : Input) (rest : List Input) (h : s.inbox = i :: rest) :
    step s = takeInput i { s with inbox := rest } := by
  unfold step nextInput
  rw [h]

end Sys2Proof.Machine
end

