-- ==== Sys2Proof/Laws/PerInstr.lean ====
section
/-! SUPPORT. The family of statements made per command: every command can be written as one line of
assembler source that is legal and stands for exactly that command's word (spec/30_encoding.md R111). -/

namespace Sys2Proof.Laws.SourceForm

/-- Some legal assembler command stands for exactly the word of `i`. -/
def Statement (i : Instr) : Prop := ∃ a : Asm, a.wellFormed = true ∧ assemble a = some [encode i]

theorem of_words (i : Instr) (a : Asm) (hw : a.wellFormed = true) (h : a.words = [encode i]) :
    Statement i := ⟨a, hw, by simp [assemble, hw, h]⟩

/-- The assembler's number of a port. -/
def portNumber : Port → Nat
  | .p1 => 1
  | .p2 => 2

/-- The assembler's number of a line. -/
def lineNumber : Line → Nat
  | .l0 => 0
  | .l1 => 1

@[simp] theorem portOfNumber_portNumber (p : Port) : portOfNumber (portNumber p) = p := by
  cases p <;> rfl

@[simp] theorem lineOfNumber_lineNumber (l : Line) : lineOfNumber (lineNumber l) = l := by
  cases l <;> rfl

@[simp] theorem portInRange_portNumber (p : Port) : portInRange (portNumber p) = true := by
  cases p <;> rfl

@[simp] theorem lineInRange_lineNumber (l : Line) : lineInRange (lineNumber l) = true := by
  cases l <;> rfl

@[simp] theorem immInRange_toNat (v : Byte) : immInRange v.toNat = true := by
  have := v.isLt
  simp [immInRange]
  omega

theorem init : Statement .init := of_words _ .init rfl rfl

theorem flush : Statement .flush := of_words _ .flush rfl rfl

theorem rdpad (p : Port) : Statement (.rdpad p) :=
  of_words _ (.rdpad (portNumber p)) (by simp [Asm.wellFormed]) (by simp [Asm.words])

theorem rdmouse (p : Port) : Statement (.rdmouse p) :=
  of_words _ (.rdmouse (portNumber p)) (by simp [Asm.wellFormed]) (by simp [Asm.words])

theorem classify (p : Port) : Statement (.classify p) :=
  of_words _ (.classify (portNumber p)) (by simp [Asm.wellFormed]) (by simp [Asm.words])

theorem setsens (p : Port) (level : Byte) : Statement (.setsens p level) :=
  of_words _ (.setsens (portNumber p) level.toNat) (by simp [Asm.wellFormed]) (by simp [Asm.words])

theorem platch : Statement .platch := of_words _ .platch rfl rfl

theorem pclock : Statement .pclock := of_words _ .pclock rfl rfl

theorem sample (l : Line) : Statement (.sample l) :=
  of_words _ (.sample (lineNumber l)) (by simp [Asm.wellFormed]) (by simp [Asm.words])

theorem wait (cycles : Byte) : Statement (.wait cycles) :=
  of_words _ (.wait cycles.toNat) (by simp [Asm.wellFormed]) (by simp [Asm.words])

end Sys2Proof.Laws.SourceForm
end

