-- ==== Sys2Proof/Tests/Slice0.lean ====
section
/-! SUPPORT. Tests. Expected values are taken from spec/95_test_vectors.md (V1–V7, P1–P5) and from the
examples inside the rules; words are written out from spec/30_encoding.md R102 and R106. At the end, for
every statement that has hypotheses, a theorem `hyp_<statement>` shows states and operands that meet them. -/

namespace Sys2Proof.Tests

open Sys2Proof Sys2Proof.Machine Sys2Proof.Claims

/- Many small kernel evaluations: one after the other, so that they do not each hold a thread. -/
set_option Elab.async false

/-! ### Helpers -/

/-- The state of an outcome, or the given one. -/
def stateOf (s : State) : Host.Outcome State Fault Refusal → State
  | .next t => t
  | .fault _ => s
  | .refused _ => s

/-- The state after a command. -/
def after (i : Instr) (s : State) : State := stateOf s (exec i s)

/-- The state after a step. -/
def stepped (s : State) : State := stateOf s (step s)

theorem runCommand_next (check : State → Option CmdError) (body : State → State) (s : State) :
    runCommand check body s = .next (stateOf s (runCommand check body s)) := by
  unfold runCommand
  split <;> rfl

theorem exec_next (i : Instr) (s : State) : exec i s = .next (after i s) := by
  cases i <;> simp only [after, exec]
  · exact runCommand_next checkNone initBody s
  · exact runCommand_next checkNone flushBody s
  · exact runCommand_next checkInit _ s
  · exact runCommand_next checkSeq _ s
  · exact runCommand_next checkInit _ s
  · exact runCommand_next checkInit setsensBody s
  · exact runCommand_next checkInit latchPulse s
  · exact runCommand_next checkInit clockPulse s
  · exact runCommand_next checkNone _ s
  · exact runCommand_next checkNone _ s

/-- The state INIT leaves after reset, FLUSH or not (R136), with an empty trace. -/
def ready : State :=
  { State.reset with pout := 0x08, pdir := 0xFC, csr := { Csr.zero with initd := true } }

/-- As `ready`, with a frame position. -/
def readyAt (f : Byte) : State := { ready with fpos := f }

/-- The raw levels of a pad report, frame bit 0 first (active-low). -/
def padLevels (m : Word) : List Bool := (List.range 16).map fun k => !m.getLsbD k

/-- The raw levels of a mouse byte, most significant bit first. -/
def byteLevels (b : Byte) : List Bool := (List.range 8).map fun j => !b.getLsbD (7 - j)

/-- The raw levels of a mouse report. -/
def mouseLevels (m : Word) (y x : Byte) : List Bool := padLevels m ++ byteLevels y ++ byteLevels x

/-- `s` with levels ready on both lines. -/
def env (a b : List Bool) (s : State) : State := { s with levels0 := a, levels1 := b }

/-- `s` with host inputs presented. -/
def fed (is : List Input) (s : State) : State := { s with inbox := is }

/-- The decoder's error on a word. -/
def errorOf (w : Word) : Option CmdError :=
  match decode w with
  | .ok _ => none
  | .error e => some e

/-- The decoder's command on a word. -/
def commandOf (w : Word) : Option Instr :=
  match decode w with
  | .ok i => some i
  | .error _ => none

/-! ### WellFormed smoke: each check refuses an ill-formed command -/

theorem test_wf_port : (Asm.rdpad 3).wellFormed = false ∧ (Asm.rdmouse 0).wellFormed = false ∧
    (Asm.classify 3).wellFormed = false ∧ (Asm.mframe 3).wellFormed = false ∧
    (Asm.setsens 3 0).wellFormed = false := by decide

theorem test_wf_line : (Asm.sample 2).wellFormed = false := by decide

theorem test_wf_immediate : (Asm.wait 256).wellFormed = false ∧
    (Asm.setsens 1 256).wellFormed = false := by decide

theorem test_wf_raw : (Asm.raw 0x10000).wellFormed = false := by decide

theorem test_wf_accepts : (Asm.rdpad 2).wellFormed = true ∧ (Asm.sample 1).wellFormed = true ∧
    (Asm.setsens 1 255).wellFormed = true ∧ (Asm.raw 0xFFFF).wellFormed = true := by decide

/-! ### Decoding, bit by bit (R102, R106; V1) -/

theorem test_decode_init : commandOf 0b0001000000000000 = some .init := by decide
theorem test_decode_flush : commandOf 0b0010000000000000 = some .flush := by decide
theorem test_decode_rdpad : commandOf 0b0011000000000000 = some (.rdpad .p1) ∧
    commandOf 0b0011000100000000 = some (.rdpad .p2) := by decide
theorem test_decode_rdmouse : commandOf 0b0100000000000000 = some (.rdmouse .p1) ∧
    commandOf 0b0100000100000000 = some (.rdmouse .p2) := by decide
theorem test_decode_classify : commandOf 0b0101000000000000 = some (.classify .p1) ∧
    commandOf 0b0101000100000000 = some (.classify .p2) := by decide
theorem test_decode_setsens : commandOf 0b0110000000000000 = some (.setsens .p1 0) ∧
    commandOf 0b0110000111111111 = some (.setsens .p2 255) := by decide
theorem test_decode_platch : commandOf 0b0111000000000000 = some .platch := by decide
theorem test_decode_pclock : commandOf 0b1000000000000000 = some .pclock := by decide
theorem test_decode_sample : commandOf 0b1001000000000000 = some (.sample .l0) ∧
    commandOf 0b1001000100000000 = some (.sample .l1) := by decide
theorem test_decode_wait : commandOf 0b1010000000010100 = some (.wait 20) ∧
    commandOf 0b1010000011111111 = some (.wait 255) := by decide

/-- V1: words with opcode 0x0 and 0xB–0xF. -/
theorem test_decode_illop : [0x0000, 0x0FFF, 0xB000, 0xF000, 0xFFFF].map errorOf =
    List.replicate 5 (some .illop) := by decide

/-- V1: words with a bit set that must be 0. -/
theorem test_decode_rsvd : [0x1001, 0x1100, 0x2800, 0x3301, 0x3400, 0x6400, 0x7001, 0x9001, 0xA100].map
    errorOf = List.replicate 9 (some .rsvd) := by decide

/-- V1: SEL = 2 or 3. -/
theorem test_decode_badsel : [0x3200, 0x3300, 0x4200, 0x6200, 0x9200].map errorOf =
    List.replicate 5 (some .badsel) := by decide

/-- The table's bit numbering: bit 0 is the least significant of the one word. -/
theorem test_decode_table_word : decodeTableWord 16 0x61FF = some (.setsens .p2 255) ∧
    decodeTableWord 16 0x3200 = none ∧ decodeTableWord 16 0x9100 = some (.sample .l1) := by decide

/-! ### Assembler text (R111, R112) -/

theorem test_asm_setsens : assembleLine "SETSENS p2, 0xff ; level".toList = some [0x61FF] := by
  decide +kernel

theorem test_asm_program : assembleText ["INIT".toList, "; comment".toList, "MFRAME p1".toList,
    ".cmd 0xB000".toList] = some [0x1000, 0x3000, 0x4000, 0xB000] := by decide +kernel

theorem test_asm_refuses : ["RDPAD p3", "SAMPLE l2", "WAIT 256", "init", "INIT p1"].map
    (fun t => assembleLine t.toList) = List.replicate 5 none := by decide +kernel

/-! ### Port driver (V2) -/

theorem test_init_from_reset :
    let t := after .init State.reset
    t.pout = 0x08 ∧ t.pdir = 0xFC ∧ t.csr.toByte = 0x01 ∧ t.fpos = 0x00 ∧
      t.trace = [.w 0x08, .p 0xFC] := by decide

theorem test_init_loses_position : (after .init (readyAt 0x8F)).fpos = 0x00 := by decide

theorem test_platch : let t := after .platch (readyAt 0x9F)
    t.fpos = 0x80 ∧ t.pout = 0x08 ∧ t.trace = [.w 0x0C, .w 0x08] := by decide

theorem test_platch_notinit : let t := after .platch State.reset
    t.csr.toByte = 0x48 ∧ t.pout = 0x00 ∧ t.trace = [] := by decide

theorem test_pclock_counts : (after .pclock (readyAt 0x80)).fpos = 0x81 ∧
    (after .pclock (readyAt 0x8F)).fpos = 0x90 ∧
    (after .pclock (readyAt 0x80)).trace = [.w 0x00, .w 0x08] := by decide

theorem test_pclock_saturates : (after .pclock (readyAt 0xFF)).fpos = 0xFF ∧
    (after .pclock (readyAt 0x00)).fpos = 0x00 := by decide

theorem test_sample_before_init : let t := after (.sample .l0) (env [true] [] State.reset)
    t.res = 0x0001 ∧ t.csr.toByte = 0x00 ∧ t.trace = [.s .l0] := by decide

theorem test_sample_raw_zero : let t := after (.sample .l1) (env [true] [false] ready)
    t.res = 0x0000 ∧ t.levels0 = [true] ∧ t.levels1 = [] := by decide

theorem test_wait : let t := after (.wait 20) (readyAt 0x8F)
    t.trace = [.d (.wait 20)] ∧ t.fpos = 0x8F ∧ t.csr.toByte = 0x01 := by decide

/-! ### Pads (V3, P1) -/

theorem test_rdpad_both_ports :
    let t := after (.rdpad .p2) (env (padLevels 0x0009) (padLevels 0x0900) ready)
    t.pad1 = 0x0009 ∧ t.pad2 = 0x0900 ∧ t.res = 0x0900 ∧ t.fpos = 0x8F ∧ t.trace.length = 64 := by
  decide +kernel

/-- Raw 0 at the odd sample points of line 0, line 1 held at raw 1. -/
theorem test_rdpad_odd_positions :
    let t := after (.rdpad .p1) (env ((List.range 16).map fun k => k % 2 = 0) (List.replicate 16 true) ready)
    t.pad1 = 0xAAAA ∧ t.pad2 = 0x0000 ∧ t.res = 0xAAAA := by decide +kernel

/-- R180's table, by its single-bit masks: B, Y, Select, Start, Up, Down, Left, Right, A, X, L, R. -/
theorem test_button_masks : [pressed 0x0001 .b, pressed 0x0002 .y, pressed 0x0004 .select,
    pressed 0x0008 .start, pressed 0x0010 .up, pressed 0x0020 .down, pressed 0x0040 .left,
    pressed 0x0080 .right, pressed 0x0100 .a, pressed 0x0200 .x, pressed 0x0400 .l,
    pressed 0x0800 .r] = List.replicate 12 true := by decide

/-! ### Mouse (V4) -/

theorem test_smdec : [0x00, 0x05, 0x7F, 0x80, 0x81, 0x83, 0xC0, 0xFE, 0xFF].map deltaRegister =
    [0x00, 0x05, 0x7F, 0x00, 0xFF, 0xFD, 0xC0, 0x82, 0x81] := by decide +kernel

theorem test_rdmouse_p1 :
    let t := after (.rdmouse .p1) { env (byteLevels 0x05 ++ byteLevels 0x83) [] (readyAt 0x8F) with pad1 := 0x8000 }
    t.mouse1 = { my := 0x05, mx := 0xFD, mstat := 0x03, mraw := 0x80 } ∧ t.res = 0x0003 ∧
      t.fpos = 0x9F ∧ t.trace.length = 64 ∧ latchPulses t.trace = 0 := by decide +kernel

theorem test_rdmouse_p2 :
    let t := after (.rdmouse .p2) { env [] (byteLevels 0x83 ++ byteLevels 0x05) (readyAt 0x8F) with pad2 := 0x8000 }
    t.mouse2 = { my := 0xFD, mx := 0x05, mstat := 0x03, mraw := 0x80 } ∧ t.mouse1 = mouseZero ∧
      t.res = 0x0003 := by decide +kernel

/-! ### Device identifier (V5, P3) -/

theorem test_flush : let t := after .flush { readyAt 0x8F with pad1 := 1, pad2 := 2, brand := 3, res := 4 }
    t.pad1 = 0 ∧ t.pad2 = 0 ∧ t.brand = 0 ∧ t.res = 4 ∧ t.fpos = 0x8F ∧ t.trace = [] := by decide

theorem test_cls : [0x0000, 0x0FFF, 0x1000, 0x7FFF, 0x8000, 0x8FFF, 0x9000, 0xFFFF].map cls =
    [.pad, .pad, .none, .none, .mouse, .mouse, .none, .none] := by decide

/-- P3: frame A reads only the pad half of the first report; frames B and C are the next two reports whole;
the brand is the third report's raw Y byte. -/
def brandedMouse : State :=
  env (padLevels 0x8000 ++ mouseLevels 0x8200 0x00 0x01 ++ mouseLevels 0x8100 0x80 0x02)
    (padLevels 0x0001 ++ padLevels 0x0001 ++ padLevels 0x0001) ready

theorem test_classify_mouse : let t := after (.classify .p1) brandedMouse
    t.res = 0x0002 ∧ t.pad1 = 0x8100 ∧ t.pad2 = 0x0001 ∧
      t.mouse1 = { my := 0x00, mx := 0x02, mstat := 0x02, mraw := 0x81 } ∧
      t.brand = 0x80 ∧ t.csr.toByte = 0x05 ∧ t.fpos = 0x9F ∧ t.trace.length = 320 := by decide +kernel

theorem test_classify_no_device :
    let t := after (.classify .p2) (env (padLevels 0x8000) (noDeviceLevels false 16) ready)
    t.res = 0x0000 ∧ t.pad1 = 0x8000 ∧ t.pad2 = 0xFFFF ∧ t.fpos = 0x8F ∧ t.csr.toByte = 0x01 := by
  decide +kernel

/-! ### Sensitivity (V6) -/

theorem test_setsens_trace : let t := after (.setsens .p2 255) (readyAt 0x8F)
    t.trace.length = 141 ∧ latchPulses t.trace = 32 ∧ clockPulses t.trace = 15 ∧ t.fpos = 0x00 ∧
      t.pout = 0x08 := by decide +kernel

theorem test_setsens_status : (after (.setsens .p1 2) ready).res = Config.sensStatus.setWidth 16 := rfl

/-! ### Host interface (V7) and reset -/

/-- The registers after program P2. -/
def afterP2 : State :=
  { readyAt 0x9F with pad1 := 0x8000, res := 0x0003, cmd := 0x4000,
                      mouse1 := { my := 0x05, mx := 0xFD, mstat := 0x03, mraw := 0x80 } }

theorem test_host_reads : [0x05, 0x06, 0x03, 0x04, 0x0A, 0x12, 0x13, 0x14, 0x15, 0x1F, 0x00, 0x01].map
    (readRegister afterP2) =
    [0x00, 0x80, 0x03, 0x00, 0xFD, 0x9F, 0xFC, 0x08, 0x00, 0x00, 0x00, 0x40] := by decide +kernel

theorem test_host_reissue : (stepped (fed [.write 0x01 0x40] afterP2)).csr.toByte = 0x59 := by
  decide +kernel

/-- P4, step 8: an illegal word. -/
theorem test_issue_illop :
    let t := stepped (fed [.write 0x01 0xB0] { ready with csr := { ready.csr with errs := true } })
    t.csr.toByte = 0x19 ∧ t.cmd = 0xB000 ∧ t.trace = [] := by decide +kernel

theorem test_fetch_word_runs : (stepped (State.reset.withFetchWord 16 0x1000)).csr.toByte = 0x01 ∧
    (stepped (State.reset.withFetchWord 16 0x3000)).csr.toByte = 0x48 := by decide +kernel

theorem test_reset_cuts_frame :
    let t := stepped (fed [.issueThenReset 0x30 5] (env (padLevels 0) (padLevels 0) ready))
    t.trace = [.w 0x0C, .w 0x08, .s .l0, .s .l1, .w 0x00] ∧ t.pout = 0x00 ∧ t.levels0.length = 15 := by
  decide +kernel

/-- Timing parameters at the DOC's 10 MHz reference clock, T_PULSE = 1.6 µs; the rest are arbitrary. -/
def referenceTiming : Timing :=
  { fClk := 10000000, tPulse := 16 / 10000000, tSettle := 3, tSensLong := 5, tSensGap := 7, tWaitUnit := 11 }

/-- R287: 1.6 µs and 2.4 µs at 10 MHz are 16 and 24 periods, one millisecond 10 000. -/
theorem test_clock_periods : referenceTiming.clockPeriods referenceTiming.tPulse = 16 ∧
    referenceTiming.clockPeriods (24 / 10000000) = 24 ∧
    referenceTiming.clockPeriods (1 / 1000) = 10000 := by decide +kernel

theorem test_min_duration : minDuration referenceTiming setsensEvents =
    (32 + 15) * (16 / 10000000) + 15 * 3 + 5 + 31 * 7 ∧
    minClockPeriods referenceTiming latchEvents = 16 := by decide +kernel

/-! ### The hypotheses of the statements can be met -/

/-- A frame of 16 levels ready on both lines. -/
def framed : State := env (padLevels 0x0009) (padLevels 0x0009) ready

theorem hyp_DecodeIffEncode : decode 0x61FF = .ok (.setsens .p2 255) ∧
    encode (.setsens .p2 255) = 0x61FF := ⟨rfl, rfl⟩

theorem hyp_SignMagnitudeDecode : 0x01 ≤ (0x01 : Byte).toNat ∧ (0x01 : Byte).toNat ≤ 0x7F ∧
    0x01 ≤ (0x7F : Byte).toNat ∧ (0x7F : Byte).toNat ≤ 0x7F ∧ smdec 0x7F = 127 ∧ smdec 0xFF = -127 := by
  decide

theorem hyp_ValidationExact : outcomeCode (.wait 0) State.reset = 0 ∧
    outcomeCode (.rdpad .p1) State.reset = 4 ∧ outcomeCode (.rdmouse .p1) State.reset = 4 ∧
    outcomeCode (.rdmouse .p1) ready = 5 ∧ outcomeCode (.rdmouse .p1) (readyAt 0x8F) = 0 := by decide

theorem hyp_RegisterMap : 0x15 ≤ (0x15 : Offset).toNat ∧ 0x15 ≤ (0x1F : Offset).toNat := by decide

theorem hyp_AssemblerWords : assemble (.setsens 1 0) = some [0x6000] ∧
    assemble (.setsens 2 255) = some [0x61FF] ∧ assemble (.sample 0) = some [0x9000] ∧
    assemble (.sample 1) = some [0x9100] ∧ assemble (.wait 255) = some [0xA0FF] ∧
    assemble (.raw 0xFFFF) = some [0xFFFF] := by decide

theorem hyp_PseudoInstructionWords : assemble (.mframe 1) = some [0x3000, 0x4000] ∧
    assemble (.mframe 2) = some [0x3100, 0x4100] := by decide

theorem hyp_InitCommand : op 0x1000 = 0x1 ∧ op 0x1FFF = 0x1 := by decide

theorem hyp_FlushCommand : op 0x2000 = 0x2 ∧ op 0x2FFF = 0x2 := by decide

theorem hyp_WaitCommand : op 0xA000 = 0xA ∧ op 0xAFFF = 0xA := by decide

theorem hyp_SampleCommand : op 0x9000 = 0x9 ∧ op 0x9FFF = 0x9 := by decide

theorem hyp_PlatchCommand : op 0x7000 = 0x7 ∧ State.reset.csr.initd = false ∧
    ready.csr.initd = true := by decide

theorem hyp_PclockCommand : op 0x8000 = 0x8 ∧ State.reset.csr.initd = false ∧
    ready.csr.initd = true := by decide

theorem hyp_RdpadCommand : op 0x3000 = 0x3 ∧ op 0x3FFF = 0x3 ∧ State.reset.csr.initd = false ∧
    ready.csr.initd = true := by decide

theorem hyp_RdmouseCommand : op 0x4000 = 0x4 ∧ State.reset.csr.initd = false ∧
    (ready.csr.initd = true ∧ ready.fpos ≠ 0x8F) ∧
    ((readyAt 0x8E).csr.initd = true ∧ (readyAt 0x8E).fpos ≠ 0x8F) ∧
    ((readyAt 0x8F).csr.initd = true ∧ (readyAt 0x8F).fpos = 0x8F) := by decide

theorem hyp_ClassifyCommand : op 0x5000 = 0x5 ∧ State.reset.csr.initd = false ∧
    ready.csr.initd = true := by decide

theorem hyp_SetsensCommand : op 0x6000 = 0x6 ∧ op 0x6FFF = 0x6 ∧ State.reset.csr.initd = false ∧
    ready.csr.initd = true := by decide

theorem hyp_FposCountsAndSaturates : (readyAt 0x80).csr.initd = true ∧ (readyAt 0x80).fpos = 0x80 ∧
    (readyAt 0x00).csr.initd = true ∧ (readyAt 0x00).fpos = 0x00 := by decide

theorem hyp_LinesIdleAfterCommand :
    (exec .init State.reset = .next (after .init State.reset) ∧ (after .init State.reset).csr.err = 0) ∧
    (drivesLines .platch = true ∧ ready.pdir = 0xFC ∧ exec .platch ready = .next (after .platch ready) ∧
      (after .platch ready).csr.err = 0) :=
  ⟨⟨exec_next _ _, by decide⟩, by decide, by decide, exec_next _ _, by decide⟩

theorem hyp_RdpadBitOrder : framed.csr.initd = true ∧ (padLevels 0x0009).length = 16 ∧
    framed.levels (dataLine .p1) = padLevels 0x0009 ++ [] ∧
    exec (.rdpad .p2) framed = .next (after (.rdpad .p2) framed) ∧
    (∀ k, k < 16 → (padLevels 0x0000).getD k false = true) ∧
    (∀ k, k < 16 → (padLevels 0xFFFF).getD k true = false) :=
  ⟨by decide, by decide, by decide, exec_next _ _, by decide, by decide⟩

theorem hyp_SinglePositionSingleButton :
    (∀ button, button = .b ∨ button = .r →
      ∀ k, k < 16 → (padLevels (BitVec.ofNat 16 (2 ^ namedPosition button))).getD k true =
        decide (k ≠ namedPosition button)) ∧
    (env (padLevels 0x0800) [] ready).levels (dataLine .p1) = padLevels 0x0800 ++ [] ∧
    (padLevels 0x0800).length = 16 ∧ (env (padLevels 0x0800) [] ready).csr.initd = true := by
  refine ⟨?_, by decide, by decide, by decide⟩
  rintro _ (rfl | rfl) <;> decide

/-- The same 16 levels twice on each line. -/
def framedTwice : State :=
  env (padLevels 0x0009 ++ padLevels 0x0009) (padLevels 0x0900 ++ padLevels 0x0900) ready

theorem hyp_RdpadIdempotent : framedTwice.csr.initd = true ∧ (padLevels 0x0009).length = 16 ∧
    framedTwice.levels0 = padLevels 0x0009 ++ (padLevels 0x0009 ++ []) ∧
    framedTwice.levels1 = padLevels 0x0900 ++ (padLevels 0x0900 ++ []) ∧
    exec (.rdpad .p1) framedTwice = .next (after (.rdpad .p1) framedTwice) ∧
    exec (.rdpad .p1) (after (.rdpad .p1) framedTwice) =
      .next (after (.rdpad .p1) (after (.rdpad .p1) framedTwice)) :=
  ⟨by decide, by decide, by decide, by decide, exec_next _ _, exec_next _ _⟩

theorem hyp_LanesIndependent : framed.csr.initd = true ∧
    framed.levels (dataLine .p1) = padLevels 0x0009 ++ [] ∧
    framedTwice.levels (dataLine .p1) = padLevels 0x0009 ++ padLevels 0x0009 ∧
    exec (.rdpad .p1) framed = .next (after (.rdpad .p1) framed) ∧
    exec (.rdpad .p2) framedTwice = .next (after (.rdpad .p2) framedTwice) :=
  ⟨by decide, by decide, by decide, exec_next _ _, exec_next _ _⟩

theorem hyp_ReadFrameBitPositions : (env [true] [false] ready).levels0 = [true] ++ [] ∧
    framed.levels0 = padLevels 0x0009 ++ [] ∧ framed.levels1 = padLevels 0x0009 ++ [] ∧
    (padLevels 0x0009).length = 16 := by decide

theorem hyp_MouseFrameOnOneLatch :
    (env (mouseLevels 0x8000 0x05 0x83) [] ready).levels (dataLine .p1) =
      mouseLevels 0x8000 0x05 0x83 ++ [] ∧ (mouseLevels 0x8000 0x05 0x83).length = 32 ∧
    (env (mouseLevels 0x8000 0x05 0x83) [] ready).csr.initd = true := by decide

/-- In sequence for RDMOUSE, with no level ready. -/
def inSequence : State := readyAt 0x8F

theorem hyp_SecondRdmouseRefused :
    exec (.rdmouse .p1) inSequence = .next (after (.rdmouse .p1) inSequence) ∧
    (after (.rdmouse .p1) inSequence).csr.err = 0 := ⟨exec_next _ _, by decide⟩

/-- `s` in sequence for RDMOUSE. -/
def inSequenceWith (s : State) : State := { s with fpos := 0x8F }

theorem hyp_InterruptedFrameRefused : inSequence.csr.initd = true ∧ inSequence.fpos = 0x8F ∧
    (∀ i, i = .init ∨ i = .rdmouse .p1 ∨ i = .flush ∨ i = .rdpad .p2 →
      exec i inSequence = .next (after i inSequence)) ∧
    (exec (.classify .p1) (inSequenceWith brandedMouse) =
        .next (after (.classify .p1) (inSequenceWith brandedMouse)) ∧
      (after (.classify .p1) (inSequenceWith brandedMouse)).res = 2) ∧
    (exec (.classify .p1) (inSequenceWith framed) =
        .next (after (.classify .p1) (inSequenceWith framed)) ∧
      (after (.classify .p1) (inSequenceWith framed)).res ≠ 2) :=
  ⟨by decide, by decide, fun _ _ => exec_next _ _, ⟨exec_next _ _, by decide +kernel⟩,
    exec_next _ _, by decide +kernel⟩

theorem hyp_FlushedRawStatus : inSequence.csr.initd = true ∧ inSequence.fpos = 0x8F := by decide

theorem hyp_ClassFromFirstFrameOnly :
    framed.levels (dataLine .p1) = padLevels 0x0009 ++ [] ∧
    (env (padLevels 0x0FF0) [] ready).levels (dataLine .p1) = padLevels 0x0FF0 ++ [] ∧
    (∀ k, 12 ≤ k → k < 16 → (padLevels 0x0009).getD k true = (padLevels 0x0FF0).getD k true) ∧
    exec (.classify .p1) framed = .next (after (.classify .p1) framed) ∧
    framed.csr.initd = true ∧ (padLevels 0x0009).length = 16 ∧ (padLevels 0x0FF0).length = 16 :=
  ⟨by decide, by decide, by decide, exec_next _ _, by decide, by decide, by decide⟩

theorem hyp_RdmouseAfterClassify :
    (exec (.classify .p1) brandedMouse = .next (after (.classify .p1) brandedMouse) ∧
      (after (.classify .p1) brandedMouse).csr.err = 0 ∧ (after (.classify .p1) brandedMouse).res = 2) ∧
    (exec (.classify .p1) framed = .next (after (.classify .p1) framed) ∧
      (after (.classify .p1) framed).csr.err = 0 ∧ (after (.classify .p1) framed).res ≠ 2) :=
  ⟨⟨exec_next _ _, by decide +kernel, by decide +kernel⟩, exec_next _ _, by decide +kernel,
    by decide +kernel⟩

theorem hyp_ClassOfHeldLine :
    (env (List.replicate 16 true) [] ready).levels (dataLine .p1) = List.replicate 16 true ++ [] ∧
    (env [] (List.replicate 16 false) ready).levels (dataLine .p2) = List.replicate 16 false ++ [] ∧
    (env [] (List.replicate 16 false) ready).csr.initd = true := by decide

theorem hyp_OnlyListedWriters : exec .platch ready = .next (after .platch ready) ∧
    ¬ writesPads .platch ∧ ¬ writesMouse .p1 .platch ∧ ¬ writesBrand .platch ∧ ¬ writesRes .platch ∧
    ¬ writesLines .flush :=
  ⟨exec_next _ _, by simp [writesPads], by simp [writesMouse], by simp [writesBrand],
    by simp [writesRes], by simp [writesLines]⟩

theorem hyp_TraceCounts : exec .platch ready = .next (after .platch ready) ∧
    (after .platch ready).csr.err = 0 ∧ (after .platch State.reset).csr.err ≠ 0 :=
  ⟨exec_next _ _, by decide, by decide⟩

theorem hyp_LeastDurationOfCommand : exec .platch ready = .next (after .platch ready) ∧
    (after .platch ready).csr.err = 0 := ⟨exec_next _ _, by decide⟩

theorem hyp_TraceFixedByOperands : (¬ ∃ p, Instr.platch = .classify p) ∧
    exec .platch ready = .next (after .platch ready) ∧
    exec .platch inSequence = .next (after .platch inSequence) ∧
    (after .platch ready).csr.err = 0 ∧ (after .platch inSequence).csr.err = 0 :=
  ⟨by simp, exec_next _ _, exec_next _ _, by decide, by decide⟩

theorem hyp_HistoryOnlyGrows : step ready = .next ready := rfl

theorem hyp_OnlyResetClearsSticky : step (fed [.read 0x02] ready) = .next (stepped (fed [.read 0x02] ready)) ∧
    resets (.read 0x02) = false ∧ ready.csr.initd = true ∧
    ({ ready with csr := { ready.csr with errs := true } } : State).csr.errs = true :=
  ⟨rfl, rfl, rfl, rfl⟩

theorem hyp_HostAccessesWithoutEffect : (fed [.read 0x1F] ready).inbox = .read 0x1F :: [] ∧
    0x15 ≤ (0x15 : Offset).toNat ∧ 0x15 ≤ (0x1F : Offset).toNat ∧
    (fed [.read 0x00, .read 0x00] ready).inbox = .read 0x00 :: .read 0x00 :: [] ∧
    step (fed [.read 0x00, .read 0x00] ready) = .next (stepped (fed [.read 0x00, .read 0x00] ready)) ∧
    0x02 ≤ (0x02 : Offset).toNat ∧ (fed [.write 0x02 0xFF] ready).inbox = .write 0x02 0xFF :: [] ∧
    0x02 ≤ (0x1F : Offset).toNat :=
  ⟨rfl, by decide, by decide, rfl, rfl, by decide, rfl, by decide⟩

theorem hyp_CmdlWrite : (fed [.write 0x00 0xFF] ready).inbox = .write 0x00 0xFF :: [] := rfl

theorem hyp_StepRunsDecodedCommand : (fed [.write 0x01 0x10] ready).inbox = .write 0x01 0x10 :: [] ∧
    commandOf 0x1000 = some .init ∧ errorOf 0xB000 = some .illop := by decide

theorem hyp_IssuedWordValidated : (fed [.write 0x01 0x32] ready).inbox = .write 0x01 0x32 :: [] ∧
    validate 0x3200 ready = 3 ∧ validate 0x3000 ready = 0 ∧ validate 0x3000 State.reset = 4 ∧
    validate 0x4000 ready = 5 ∧ validate 0x3301 ready = 2 ∧ validate 0xB000 ready = 1 := by decide

theorem hyp_ProgramWordRuns : (fed (programAccesses [encode .init]) ready).inbox =
    programAccesses [encode .init] ++ [] := by decide

theorem hyp_TwoByteReadIsWhole : ((0x07 : Offset), ready.pad2) ∈ wordRegisters ready ∧
    (fed [.read 0x07, .read 0x08] ready).inbox = .read 0x07 :: .read (0x07 + 1) :: [] := by decide

theorem hyp_IdleKeepsState : State.reset.inbox = [] := rfl

theorem hyp_ResetInput : (fed [.reset] ready).inbox = .reset :: [] := rfl

theorem hyp_ResetKeepsNeighbours :
    (fed [.reset, .read 0x02] (env [true] [false] ready)).inbox = .reset :: [.read 0x02] := rfl

theorem hyp_ResetCutsCommand : (fed [.issueThenReset 0x30 0] ready).inbox = .issueThenReset 0x30 0 :: [] ∧
    (fed [.issueThenReset 0x30 64] ready).inbox = .issueThenReset 0x30 64 :: [] := by decide

theorem hyp_StepKeepsInvariant : State.reset.Inv ∧ step State.reset = .next State.reset := by
  refine ⟨?_, rfl⟩
  unfold State.Inv linesAtRest errorRecorded positionKnownOrZero mouseConsistent brandConsistent
    nothingReadBeforeInit
  decide

theorem hyp_ReachableRegisterValues : Reachable State.reset ∧
    Reachable (stepped (fed [.write 0x01 0x10] State.reset)) :=
  ⟨.reset, .step _ _ (.present State.reset [.write 0x01 0x10] [] [] .reset) rfl⟩

end Sys2Proof.Tests
end

section
/-! PROOF. How a command is put together: its check, its body and the two outcomes of `exec`; what each
body leaves alone. -/

namespace Sys2Proof.Machine

/-! ### Check and body of a command -/

/-- The check of a command that depends on state (spec/60_exceptions.md R242). -/
def commandCheck : Instr → State → Option CmdError
  | .init => checkNone
  | .flush => checkNone
  | .rdpad _ => checkInit
  | .rdmouse _ => checkSeq
  | .classify _ => checkInit
  | .setsens _ _ => checkInit
  | .platch => checkInit
  | .pclock => checkInit
  | .sample _ => checkNone
  | .wait _ => checkNone

/-- What a command does once it has passed its check. -/
def commandBody : Instr → State → State
  | .init => initBody
  | .flush => flushBody
  | .rdpad p => rdpadBody p
  | .rdmouse p => fun s => (rdmouseBody p s).2
  | .classify p => classifyBody p
  | .setsens _ _ => setsensBody
  | .platch => latchPulse
  | .pclock => clockPulse
  | .sample l => sampleBody l
  | .wait n => delay (.wait n)

theorem exec_eq_runCommand (i : Instr) (s : State) :
    exec i s = runCommand (commandCheck i) (commandBody i) s := by
  cases i <;> rfl

/-- What a command can do: it is refused with no effect but the code, or its body runs. -/
theorem exec_cases {i : Instr} {s t : State} (h : exec i s = .next t) :
    (∃ e, commandCheck i s = some e ∧ t = refuseCommand e s) ∨
    (commandCheck i s = none ∧ t = succeed (commandBody i (openTransaction s))) :=
  runCommand_cases _ _ s t (exec_eq_runCommand i s ▸ h)

/-- The checks read INITD and FPOS only, so opening the transaction does not change them. -/
theorem commandCheck_openTransaction (i : Instr) (s : State) :
    commandCheck i (openTransaction s) = commandCheck i s := by
  cases i <;> rfl

/-- A command that drives the latch or clock line passes its check only after INIT. -/
theorem initd_of_commandCheck {i : Instr} {s : State} (h : commandCheck i s = none)
    (hi : Claims.drivesLines i = true) : s.csr.initd = true := by
  by_contra hn
  rw [Bool.not_eq_true] at hn
  cases i with
  | init | flush | sample l | wait n => simp [Claims.drivesLines] at hi
  | rdmouse p => cases (checkSeq_notinit s hn).symm.trans h
  | rdpad p | classify p | setsens p level | platch | pclock =>
    cases (checkInit_notinit s hn).symm.trans h

/-- The writers of POUT and FPOS are INIT and the commands that drive the lines. -/
theorem writesLines_iff (i : Instr) :
    Claims.writesLines i ↔ i = .init ∨ Claims.drivesLines i = true := by
  cases i <;> simp [Claims.writesLines, Claims.drivesLines]

/-! ### Bodies -/

theorem rdpadBody_eq (p : Port) (s : State) :
    rdpadBody p s = setRes ((frame16 s).1.of p) (framePads s) := rfl

/-- What holds after CLASSIFY: anything its flush and first frame establish and its further frames, mouse
reads, brand and result keep (spec/44_device_identifier.md R215). -/
theorem classifyBody_induction (Q : State → Prop) (p : Port) (s : State)
    (first : Q (framePads (flushBody s)))
    (frame : ∀ u, Q u → Q (framePads u))
    (mouse : ∀ u, Q u → Q (rdmouseBody p u).2)
    (brand : ∀ u b, Q u → Q { u with brand := b, csr := { u.csr with brandv := true } })
    (result : ∀ u v, Q u → Q (setRes v u)) : Q (classifyBody p s) := by
  have frameRead : ∀ u, Q u → Q (mouseFrame p u).2 := fun u hu => mouse _ (frame u hu)
  unfold classifyBody
  refine result _ _ ?_
  split
  · exact brand _ _ (frameRead _ (frameRead _ first))
  · exact first

/-! ### What a body leaves alone -/

/-- CMD, the host's side of the bus, INITD, ERRS and PDIR are the same in both states. -/
structure SameSetup (s t : State) : Prop where
  cmd : t.cmd = s.cmd
  inbox : t.inbox = s.inbox
  readData : t.readData = s.readData
  initd : t.csr.initd = s.csr.initd
  errs : t.csr.errs = s.csr.errs
  pdir : t.pdir = s.pdir

theorem SameSetup.trans {s t u : State} (h : SameSetup s t) (k : SameSetup t u) : SameSetup s u where
  cmd := k.cmd.trans h.cmd
  inbox := k.inbox.trans h.inbox
  readData := k.readData.trans h.readData
  initd := k.initd.trans h.initd
  errs := k.errs.trans h.errs
  pdir := k.pdir.trans h.pdir

theorem framePads_sameSetup (s : State) : SameSetup s (framePads s) := by
  rw [framePads_eq]
  constructor <;> rfl

theorem rdmouseBody_sameSetup (p : Port) (s : State) : SameSetup s (rdmouseBody p s).2 := by
  rw [rdmouseBody_eq]
  constructor <;> rfl

theorem classifyBody_sameSetup (p : Port) (s : State) : SameSetup s (classifyBody p s) := by
  apply classifyBody_induction (SameSetup s)
  case first =>
    have flush : SameSetup s (flushBody s) := by constructor <;> rfl
    exact flush.trans (framePads_sameSetup _)
  case frame => exact fun u hu => hu.trans (framePads_sameSetup u)
  case mouse => exact fun u hu => hu.trans (rdmouseBody_sameSetup p u)
  case brand => exact fun u b hu => hu.trans (by constructor <;> rfl)
  case result => exact fun u v hu => hu.trans (by constructor <;> rfl)

/-- No command but INIT writes INITD or PDIR; no body writes CMD or the host's side. -/
theorem commandBody_sameSetup {i : Instr} (hi : i ≠ .init) (s : State) :
    SameSetup s (commandBody i s) := by
  cases i with
  | init => exact absurd rfl hi
  | flush => constructor <;> rfl
  | rdpad p => exact (framePads_sameSetup s).trans (by constructor <;> rfl)
  | rdmouse p => exact rdmouseBody_sameSetup p s
  | classify p => exact classifyBody_sameSetup p s
  | setsens p level => simp only [commandBody, setsensBody_eq]; constructor <;> rfl
  | platch => constructor <;> rfl
  | pclock => constructor <;> rfl
  | sample l => constructor <;> simp [commandBody, sampleBody]
  | wait n => constructor <;> rfl

theorem commandBody_cmd (i : Instr) (s : State) : (commandBody i s).cmd = s.cmd := by
  by_cases hi : i = .init
  · subst hi; rfl
  · exact (commandBody_sameSetup hi s).cmd

theorem commandBody_inbox (i : Instr) (s : State) : (commandBody i s).inbox = s.inbox := by
  by_cases hi : i = .init
  · subst hi; rfl
  · exact (commandBody_sameSetup hi s).inbox

theorem commandBody_readData (i : Instr) (s : State) :
    (commandBody i s).readData = s.readData := by
  by_cases hi : i = .init
  · subst hi; rfl
  · exact (commandBody_sameSetup hi s).readData

/-! ### The writers' table, register by register (spec/10_state.md R53) -/

section Writers
open Claims

theorem commandBody_pads {i : Instr} (h : ¬ writesPads i) (s : State) :
    (commandBody i s).pad1 = s.pad1 ∧ (commandBody i s).pad2 = s.pad2 := by
  cases i with
  | rdpad p | classify p | flush => simp [writesPads] at h
  | init | platch | pclock | wait n => exact ⟨rfl, rfl⟩
  | rdmouse p => simp [commandBody, rdmouseBody_eq]
  | setsens p level => simp [commandBody, setsensBody_eq]
  | sample l => simp [commandBody, sampleBody]

theorem commandBody_mouse {i : Instr} {p : Port} (h : ¬ writesMouse p i) (s : State) :
    (commandBody i s).mouse p = s.mouse p := by
  cases i with
  | classify q | flush => simp [writesMouse] at h
  | rdmouse q =>
    have hq : q ≠ p := by simpa [writesMouse] using h
    cases q <;> cases p <;> simp_all [commandBody, rdmouseBody_eq]
  | init | platch | pclock | wait n => cases p <;> rfl
  | rdpad q => cases p <;> simp [commandBody, rdpadBody_eq, framePads_eq]
  | setsens q level => cases p <;> simp [commandBody, setsensBody_eq]
  | sample l => cases p <;> simp [commandBody, sampleBody]

theorem commandBody_brand {i : Instr} (h : ¬ writesBrand i) (s : State) :
    (commandBody i s).brand = s.brand ∧ (commandBody i s).csr.brandv = s.csr.brandv := by
  cases i with
  | classify p | flush => simp [writesBrand] at h
  | init | platch | pclock | wait n => exact ⟨rfl, rfl⟩
  | rdpad p => simp [commandBody, rdpadBody_eq, framePads_eq]
  | rdmouse p => simp [commandBody, rdmouseBody_eq]
  | setsens p level => simp [commandBody, setsensBody_eq]
  | sample l => simp [commandBody, sampleBody]

theorem commandBody_res {i : Instr} (h : ¬ writesRes i) (s : State) :
    (commandBody i s).res = s.res := by
  cases i with
  | rdpad p | rdmouse p | classify p | setsens p level | sample l => simp [writesRes] at h
  | init | flush | platch | pclock | wait n => rfl

theorem commandBody_lines {i : Instr} (h : ¬ writesLines i) (s : State) :
    (commandBody i s).pout = s.pout ∧ (commandBody i s).fpos = s.fpos := by
  cases i with
  | init | platch | pclock | rdpad p | rdmouse p | classify p | setsens p level =>
    simp [writesLines] at h
  | flush | wait n => exact ⟨rfl, rfl⟩
  | sample l => simp [commandBody, sampleBody]

end Writers

/-- A writer of POUT leaves the idle level there: clock high, latch low (spec/10_state.md R45). -/
theorem commandBody_pout_idle {i : Instr} (h : Claims.writesLines i) (s : State) :
    (commandBody i s).pout = 0x08 := by
  rw [writesLines_iff] at h
  cases i with
  | init => rfl
  | rdpad p => simp [commandBody, rdpadBody_eq, framePads_eq]
  | rdmouse p => simp [commandBody, rdmouseBody_eq]
  | classify p =>
    apply classifyBody_induction (fun u => u.pout = 0x08)
    case first => rw [framePads_eq]
    case frame => intro u _; rw [framePads_eq]
    case mouse => intro u _; rw [rdmouseBody_eq]
    case brand => exact fun u b hu => hu
    case result => exact fun u v hu => hu
  | setsens p level => simp [commandBody, setsensBody_eq]
  | platch => rfl
  | pclock => rfl
  | flush | sample l | wait n => simp [Claims.drivesLines] at h

end Sys2Proof.Machine
end

section
/-! PROOF. FPOS through clock pulses, the CSR byte, the mouse bytes. -/

namespace Sys2Proof.Machine

/-! ### FPOS (spec/10_state.md R48, R49) -/

theorem bit7_iff (b : Byte) : b.getLsbD 7 = true ↔ 128 ≤ b.toNat := by
  have hmsb : b.getLsbD 7 = b.msb := rfl
  rw [hmsb, BitVec.msb_eq_decide]
  simp

theorem fposValid_iff (f : Byte) : fposValid f = true ↔ 128 ≤ f.toNat := bit7_iff f

theorem fposCount_toNat (f : Byte) : (fposCount f).toNat = f.toNat % 128 := by
  simp [fposCount]

/-- With the position known a clock pulse counts one more, up to CNT = 127. -/
theorem fposClocked_toNat_of_valid (f : Byte) (h : 128 ≤ f.toNat) :
    (fposClocked f).toNat = min (f.toNat + 1) 255 := by
  have hf := f.isLt
  unfold fposClocked
  simp only [fposValid_iff, fposCount_toNat]
  split
  · rw [BitVec.toNat_add]
    simp
    omega
  · omega

@[simp] theorem fposClocked_zero : fposClocked 0x00 = 0x00 := by decide

theorem fposAfter_toNat_of_valid (n : Nat) (f : Byte) (h : 128 ≤ f.toNat) :
    (fposAfter n f).toNat = min (f.toNat + n) 255 := by
  induction n generalizing f with
  | zero => have := f.isLt; simp [fposAfter]; omega
  | succ n ih =>
    have hc := fposClocked_toNat_of_valid f h
    rw [fposAfter, ih _ (by omega), hc]
    omega

@[simp] theorem fposAfter_unknown (n : Nat) : fposAfter n 0x00 = 0x00 := by
  induction n with
  | zero => rfl
  | succ n ih => rw [fposAfter, fposClocked_zero, ih]

theorem exec_pclock_ready (s : State) (h : s.csr.initd = true) :
    exec .pclock s = .next (succeed (clockPulse (openTransaction s))) := by
  rw [exec_eq_runCommand]
  exact runCommand_runs _ _ s (checkInit_ready s h)

/-- After INIT, `n` PCLOCKs all run, and FPOS takes their `n` clock pulses. -/
theorem pclocks_ready (n : Nat) (s : State) (h : s.csr.initd = true) :
    ∃ t, Claims.pclocks n s = .next t ∧ t.fpos = fposAfter n s.fpos := by
  induction n generalizing s with
  | zero => exact ⟨s, rfl, rfl⟩
  | succ n ih =>
    obtain ⟨t, hrun, hfpos⟩ := ih (succeed (clockPulse (openTransaction s))) h
    refine ⟨t, ?_, hfpos⟩
    rw [Claims.pclocks, exec_pclock_ready s h]
    exact hrun

/-! ### The CSR byte (spec/10_state.md R42, R43) -/

/-- The CSR byte bit by bit: above bit 3 stands ERR, which has no bit 3 and so leaves bit 7 at 0. -/
theorem toByte_getLsbD (c : Csr) (k : Nat) :
    c.toByte.getLsbD k =
      if k = 0 then c.initd else if k = 1 then false else if k = 2 then c.brandv
      else if k = 3 then c.errs else c.err.getLsbD (k - 4) := by
  change (0#1 ++ (c.err ++ (BitVec.ofBool c.errs ++ (BitVec.ofBool c.brandv
    ++ (0#1 ++ BitVec.ofBool c.initd))))).getLsbD k = _
  simp only [BitVec.getLsbD_append]
  match k with
  | 0 | 1 | 2 | 3 => simp
  | k + 4 =>
    by_cases hk : k < 3
    · simp [hk, show k + 4 < 7 by omega]
    · simp [Nat.le_of_not_lt hk]

/-! ### Mouse bytes (spec/10_state.md R35, R36; spec/43_mouse_decoder.md R192) -/

theorem smdec_bounds (r : Byte) : -127 ≤ smdec r ∧ smdec r ≤ 127 := by
  have hr := r.isLt
  have hlow : (r.extractLsb' 0 7).toNat < 128 := (r.extractLsb' 0 7).isLt
  unfold smdec
  split
  · omega
  · next hsign =>
    have := (bit7_iff r).not.mp hsign
    omega

/-- The register pattern read as a two's-complement number is the decoded delta. -/
theorem deltaRegister_toInt (r : Byte) : (deltaRegister r).toInt = smdec r := by
  obtain ⟨hlo, hhi⟩ := smdec_bounds r
  exact BitVec.toInt_ofInt_eq_self (by decide) (by simpa using by omega) (by simpa using by omega)

/-- No decoded delta is -128 (R35). -/
theorem deltaRegister_ne_min (r : Byte) : deltaRegister r ≠ 0x80 := by
  intro h
  have hmin : smdec r = -128 := by rw [← deltaRegister_toInt, h]; decide
  have := smdec_bounds r
  omega

theorem decodeMouse_consistent (ry rx : Byte) (mask : Word) :
    mouseConsistent (decodeMouse ry rx mask) :=
  ⟨deltaRegister_ne_min ry, deltaRegister_ne_min rx, rfl⟩

theorem mouseZero_consistent : mouseConsistent .zero := by
  refine ⟨?_, ?_, ?_⟩ <;> decide

/-- The model's MSTAT is the rules' pattern. -/
theorem mouseStatus_eq_statusPattern (my mx : Byte) :
    mouseStatus my mx = Claims.statusPattern my mx := by
  unfold mouseStatus Claims.statusPattern
  by_cases hy : my = 0#8 <;> by_cases hx : mx = 0#8 <;> simp [hy, hx]

end Sys2Proof.Machine
end

section
/-! PROOF. Properties of the block's registers that every step keeps: the induction over a run once, then
the parts of the invariant that rest on no other part. -/

namespace Sys2Proof.Machine

/-! ### Invariants -/

/-- The block's registers but CMD taken from `s`, everything else of `u`. -/
def withRegisters (s u : State) : State :=
  { u with pad1 := s.pad1, pad2 := s.pad2, mouse1 := s.mouse1, mouse2 := s.mouse2, brand := s.brand,
           res := s.res, csr := s.csr, pout := s.pout, pdir := s.pdir, fpos := s.fpos }

/-- A property of the block's registers that reset establishes and every refusal and every command body
keeps. CMD and the model's own fields are free to change under it. -/
structure RegisterInvariant (P : State → Prop) : Prop where
  registersOnly : ∀ s u, P s → P (withRegisters s u)
  reset : P State.reset
  refused : ∀ e s, P s → P (refuseCommand e s)
  ran : ∀ i s, commandCheck i s = none → P s → P (succeed (commandBody i s))

/-- What a CMDH write cut by a reset can do: the write answers, and the reset follows. -/
theorem hostWriteThenReset_cases {v : Byte} {n : Nat} {s t : State}
    (h : hostWriteThenReset v n s = .next t) :
    ∃ u, hostWrite 0x01 v s = .next u ∧ t = resetDuring n s u := by
  unfold hostWriteThenReset at h
  split at h
  · next u hu => exact ⟨u, hu, by injection h with h; exact h.symm⟩
  · cases h
  · cases h

namespace RegisterInvariant

variable {P : State → Prop} (hP : RegisterInvariant P)
include hP

theorem of_exec {i : Instr} {s t : State} (hs : P s) (h : exec i s = .next t) : P t := by
  obtain ⟨e, -, rfl⟩ | ⟨hcheck, rfl⟩ := exec_cases h
  · exact hP.refused e s hs
  · exact hP.ran i _ (commandCheck_openTransaction i s ▸ hcheck)
      (hP.registersOnly s (openTransaction s) hs)

theorem of_issue {s t : State} (hs : P s) (h : issue s = .next t) : P t := by
  obtain ⟨i, -, hi⟩ | ⟨e, -, he⟩ := issue_cases s
  · exact hP.of_exec hs (hi ▸ h)
  · cases he.symm.trans h
    exact hP.refused e s hs

theorem of_hostWrite {off : Offset} {v : Byte} {s t : State} (hs : P s)
    (h : hostWrite off v s = .next t) : P t := by
  obtain ⟨-, hw⟩ | ⟨-, hw⟩ | ⟨-, -, hw⟩ := hostWrite_cases off v s
  · cases hw.symm.trans h
    exact hP.registersOnly s { s with cmd := _ } hs
  · exact hP.of_issue (hP.registersOnly s { s with cmd := _ } hs) (hw.symm.trans h)
  · cases hw.symm.trans h
    exact hs

theorem of_takeInput {i : Input} {s t : State} (hs : P s) (h : takeInput i s = .next t) : P t := by
  cases i with
  | read off =>
    cases h
    exact hP.registersOnly s (hostRead off s) hs
  | write off v => exact hP.of_hostWrite hs h
  | reset =>
    cases h
    exact hP.registersOnly State.reset (resetBlock s) hP.reset
  | issueThenReset v n =>
    obtain ⟨u, -, rfl⟩ := hostWriteThenReset_cases h
    exact hP.registersOnly State.reset (resetDuring n s u) hP.reset

theorem of_step {s t : State} (hs : P s) (h : step s = .next t) : P t := by
  cases hin : s.inbox with
  | nil =>
    simp only [step, nextInput, hin] at h
    cases h
    exact hs
  | cons i rest =>
    rw [step_of_inbox s i rest hin] at h
    exact hP.of_takeInput (hP.registersOnly s { s with inbox := rest } hs) h

theorem of_reachable {s : State} (h : Claims.Reachable s) : P s := by
  induction h with
  | reset => exact hP.reset
  | present s inputs a b _ ih =>
    exact hP.registersOnly s
      { s with inbox := s.inbox ++ inputs, levels0 := s.levels0 ++ a, levels1 := s.levels1 ++ b } ih
  | step s t _ ht ih => exact hP.of_step ih ht

end RegisterInvariant

/-! ### Parts of the invariant -/

/-- The codes of R241 end at 5. -/
theorem errorCode_le (e : CmdError) : (errorCode e).toNat ≤ 5 := by
  cases e <;> decide

theorem errorRecorded_registerInvariant : RegisterInvariant errorRecorded where
  registersOnly _ _ h := h
  reset := ⟨by decide, by decide⟩
  refused e _ _ := ⟨errorCode_le e, fun _ => rfl⟩
  ran _ _ _ _ := ⟨by simp, fun h => absurd rfl h⟩

theorem linesAtRest_of_initd {s : State} (h : s.csr.initd = true) :
    linesAtRest s ↔ s.pout = 0x08 ∧ s.pdir = 0xFC := by
  simp [linesAtRest, h]

theorem linesAtRest_of_not_initd {s : State} (h : s.csr.initd = false) :
    linesAtRest s ↔ s.pout = 0x00 ∧ s.pdir = 0x00 := by
  simp [linesAtRest, h]

theorem linesAtRest_congr {s t : State} (hi : t.csr.initd = s.csr.initd) (ho : t.pout = s.pout)
    (hd : t.pdir = s.pdir) : linesAtRest t ↔ linesAtRest s := by
  simp [linesAtRest, hi, ho, hd]

/-- Every command body keeps the lines at rest: INIT brings them there, a line-driving command runs only
after INIT and ends at the idle level, the others touch no line. -/
theorem linesAtRest_commandBody {i : Instr} {s : State} (hcheck : commandCheck i s = none)
    (h : linesAtRest s) : linesAtRest (commandBody i s) := by
  by_cases hinit : i = .init
  · subst hinit
    exact (linesAtRest_of_initd rfl).mpr ⟨rfl, rfl⟩
  have hsame := commandBody_sameSetup hinit s
  by_cases hdrive : Claims.drivesLines i = true
  · have hs : s.csr.initd = true := initd_of_commandCheck hcheck hdrive
    obtain ⟨-, hpdir⟩ := (linesAtRest_of_initd hs).mp h
    exact (linesAtRest_of_initd (hsame.initd.trans hs)).mpr
      ⟨commandBody_pout_idle ((writesLines_iff i).mpr (.inr hdrive)) s, hsame.pdir.trans hpdir⟩
  · have hlines : ¬ Claims.writesLines i := by simp [writesLines_iff, hinit, hdrive]
    obtain ⟨hpout, -⟩ := commandBody_lines hlines s
    exact (linesAtRest_congr hsame.initd hpout hsame.pdir).mpr h

theorem linesAtRest_registerInvariant : RegisterInvariant linesAtRest where
  registersOnly _ _ h := h
  reset := ⟨rfl, rfl⟩
  refused _ _ h := h
  ran _ _ hcheck h := linesAtRest_commandBody hcheck h

/-- The MouseState of either port is consistent. -/
def miceConsistent (s : State) : Prop := ∀ p, mouseConsistent (s.mouse p)

theorem miceConsistent_iff (s : State) :
    miceConsistent s ↔ mouseConsistent s.mouse1 ∧ mouseConsistent s.mouse2 :=
  ⟨fun h => ⟨h .p1, h .p2⟩, fun ⟨h1, h2⟩ p => by cases p <;> assumption⟩

theorem miceConsistent_congr {s t : State} (h : ∀ p, t.mouse p = s.mouse p)
    (hs : miceConsistent s) : miceConsistent t := fun p => h p ▸ hs p

theorem miceConsistent_flushBody (s : State) : miceConsistent (flushBody s) :=
  (miceConsistent_iff _).mpr ⟨mouseZero_consistent, mouseZero_consistent⟩

theorem miceConsistent_framePads {s : State} (h : miceConsistent s) :
    miceConsistent (framePads s) := by
  rw [framePads_eq]
  exact miceConsistent_congr (fun p => by cases p <;> rfl) h

theorem miceConsistent_rdmouseBody (p : Port) {s : State} (h : miceConsistent s) :
    miceConsistent (rdmouseBody p s).2 := by
  rw [miceConsistent_iff] at h ⊢
  obtain ⟨h1, h2⟩ := h
  rw [rdmouseBody_eq]
  cases p with
  | p1 => exact ⟨decodeMouse_consistent _ _ _, h2⟩
  | p2 => exact ⟨h1, decodeMouse_consistent _ _ _⟩

theorem miceConsistent_classifyBody (p : Port) (s : State) : miceConsistent (classifyBody p s) := by
  apply classifyBody_induction miceConsistent
  case first => exact miceConsistent_framePads (miceConsistent_flushBody s)
  case frame => exact fun u hu => miceConsistent_framePads hu
  case mouse => exact fun u hu => miceConsistent_rdmouseBody p hu
  case brand => exact fun u b hu => miceConsistent_congr (fun q => by cases q <;> rfl) hu
  case result => exact fun u v hu => miceConsistent_congr (fun q => by cases q <;> rfl) hu

theorem miceConsistent_commandBody (i : Instr) {s : State} (h : miceConsistent s) :
    miceConsistent (commandBody i s) := by
  cases i with
  | flush => exact miceConsistent_flushBody s
  | rdmouse p => exact miceConsistent_rdmouseBody p h
  | classify p => exact miceConsistent_classifyBody p s
  | init | rdpad p | setsens p level | platch | pclock | sample l | wait n =>
    exact miceConsistent_congr (fun p => commandBody_mouse (by simp [Claims.writesMouse]) s) h

theorem miceConsistent_registerInvariant : RegisterInvariant miceConsistent where
  registersOnly s _ h := miceConsistent_congr (s := s) (fun p => by cases p <;> rfl) h
  reset := (miceConsistent_iff _).mpr ⟨mouseZero_consistent, mouseZero_consistent⟩
  refused _ _ h := miceConsistent_congr (fun p => by cases p <;> rfl) h
  ran i _ _ h :=
    miceConsistent_congr (fun p => by cases p <;> rfl) (miceConsistent_commandBody i h)

end Sys2Proof.Machine
end

section
/-! PROOF. The settled obligations about the state. -/

namespace Sys2Proof.Proofs

open Sys2Proof Sys2Proof.Machine Sys2Proof.Claims

/-- Settles O58: the lines at rest, the recorded error and the consistent MouseStates are invariants of
every run, and the values follow from them. -/
theorem reachableRegisterValues : Obligations.ReachableRegisterValues := by
  unfold Obligations.ReachableRegisterValues
  intro s hs
  have hrest := linesAtRest_registerInvariant.of_reachable hs
  have hmice := miceConsistent_registerInvariant.of_reachable hs
  obtain ⟨hcode, -⟩ := errorRecorded_registerInvariant.of_reachable hs
  refine ⟨?_, fun p => ?_, ?_, ?_, ?_, ?_⟩
  · cases hinit : s.csr.initd with
    | true =>
      obtain ⟨hpout, -⟩ := (linesAtRest_of_initd hinit).mp hrest
      exact .inr hpout
    | false =>
      obtain ⟨hpout, -⟩ := (linesAtRest_of_not_initd hinit).mp hrest
      exact .inl hpout
  · obtain ⟨hmy, hmx, hmstat⟩ := hmice p
    exact ⟨hmy, hmx, hmstat.trans (mouseStatus_eq_statusPattern _ _)⟩
  · intro h
    simp [h] at hcode
  · intro h
    simp [h] at hcode
  · exact fun h => ((linesAtRest_of_initd h).mp hrest).2
  · exact fun h => ((linesAtRest_of_not_initd h).mp hrest).2

/-- Settles O12, by induction on the number of PCLOCKs (`pclocks_ready`) and on the clock pulses FPOS
takes (`fposAfter_toNat_of_valid`). -/
theorem fposCountsAndSaturates : Obligations.FposCountsAndSaturates := by
  unfold Obligations.FposCountsAndSaturates
  intro n s hinit
  obtain ⟨t, hrun, hfpos⟩ := pclocks_ready n s hinit
  refine ⟨fun h => ⟨t, hrun, ?_⟩, fun h => ⟨t, hrun, ?_⟩⟩
  · have h128 : s.fpos.toNat = 128 := by rw [h]; rfl
    rw [hfpos, fposAfter_toNat_of_valid n s.fpos (by omega)]
    omega
  · rw [hfpos, h, fposAfter_unknown]

/-- Settles O36: a refusal writes only CSR.ERR and CSR.ERRS, and a body that runs writes only the
registers the table lists for it. -/
theorem onlyListedWriters : Obligations.OnlyListedWriters := by
  unfold Obligations.OnlyListedWriters
  intro i s t h
  obtain ⟨e, -, rfl⟩ | ⟨-, rfl⟩ := exec_cases h
  · refine ⟨?_, fun p _ => by cases p <;> rfl, ?_⟩ <;> simp
  · refine ⟨fun hi => commandBody_pads hi _, fun p hi => ?_, fun hi => commandBody_brand hi _,
      fun hi => commandBody_res hi _, fun hi => ?_, fun hi => commandBody_lines hi _,
      commandBody_cmd i _, commandBody_inbox i _, commandBody_readData i _⟩
    · have hbody := commandBody_mouse hi (openTransaction s)
      cases p <;> exact hbody
    · have hsame := commandBody_sameSetup hi (openTransaction s)
      exact ⟨hsame.initd, hsame.pdir⟩

/-- Settles O44: each field is read off the concatenation (`toByte_getLsbD`). -/
theorem csrLayout : Obligations.CsrLayout := by
  unfold Obligations.CsrLayout
  intro c
  have herr : c.toByte.extractLsb' 4 3 = c.err := by
    apply BitVec.eq_of_getLsbD_eq
    intro k hk
    rw [BitVec.getLsbD_extractLsb', Nat.add_comm, toByte_getLsbD]
    simp [hk]
  exact ⟨toByte_getLsbD c 0, toByte_getLsbD c 1, toByte_getLsbD c 2, toByte_getLsbD c 3, herr,
    (toByte_getLsbD c 7).trans (BitVec.getLsbD_of_ge c.err 3 (Nat.le_refl 3))⟩

/-- Settles O52. -/
theorem resetValues : Obligations.ResetValues := by
  unfold Obligations.ResetValues
  refine ⟨rfl, rfl, rfl, rfl, rfl, rfl, rfl, by decide, rfl, rfl, rfl, fun off => ?_, fun j => ?_⟩
  · revert off
    decide
  · simp [drivenLevel, State.reset]

/-- Settles O56: part by part, since every register is 0 at reset. -/
theorem resetMeetsInvariant : Obligations.ResetMeetsInvariant :=
  ⟨⟨rfl, rfl⟩, ⟨Nat.zero_le 5, fun h => absurd rfl h⟩,
    ⟨.inl rfl, fun _ => rfl⟩, mouseZero_consistent, mouseZero_consistent, fun _ => rfl,
    fun _ => ⟨rfl, rfl, rfl, rfl, rfl⟩⟩

end Sys2Proof.Proofs
end

section
/-! PROOF. The host interface: the register map as lemmas about `readRegister`, each host access as one
step, and the history of events that every step only extends. -/

namespace Sys2Proof.Machine

/-! ### The register map (spec/20_memory.md R71, R72, R77) -/

theorem readRegister_reserved (s : State) (off : Offset) (h : 0x15 ≤ off.toNat) :
    readRegister s off = 0x00 := by
  unfold readRegister
  split
  case h_22 => rfl
  all_goals omega

/-- The map shows the block's registers; the host's pending accesses and past answers are not in it. -/
@[simp] theorem readRegister_hostSide (s : State) (off : Offset) (inputs : List Input)
    (answers : List Byte) :
    readRegister { s with inbox := inputs, readData := answers } off = readRegister s off := rfl

/-- A 16-bit register stands at two offsets, its low byte at the lower one. -/
theorem readRegister_halves {s : State} {off : Offset} {r : Word}
    (h : (off, r) ∈ Claims.wordRegisters s) :
    readRegister s off = lowByte r ∧ readRegister s (off + 1) = highByte r := by
  simp only [Claims.wordRegisters, List.mem_cons, List.not_mem_nil, or_false, Prod.mk.injEq] at h
  obtain ⟨rfl, rfl⟩ | ⟨rfl, rfl⟩ | ⟨rfl, rfl⟩ | ⟨rfl, rfl⟩ := h <;> exact ⟨rfl, rfl⟩

/-! ### One host access as a step (R72–R74) -/

theorem step_read {s : State} {off : Offset} {rest : List Input} (h : s.inbox = .read off :: rest) :
    step s = .next { s with inbox := rest, readData := s.readData ++ [readRegister s off] } :=
  step_of_inbox s _ rest h

/-- Two reads in a row both answer from the state before the first. -/
theorem step_read_read {s : State} {off off' : Offset} {rest : List Input}
    (h : s.inbox = .read off :: .read off' :: rest) :
    ∃ t, step s = .next t ∧ step t = .next
      { s with inbox := rest,
               readData := s.readData ++ [readRegister s off, readRegister s off'] } := by
  refine ⟨_, step_read h, ?_⟩
  rw [step_read rfl]
  simp

theorem step_write {s : State} {off : Offset} {v : Byte} {rest : List Input}
    (h : s.inbox = .write off v :: rest) : step s = hostWrite off v { s with inbox := rest } :=
  step_of_inbox s _ rest h

theorem hostWrite_cmdl (v : Byte) (s : State) :
    hostWrite 0x00 v s = .next { s with cmd := joinBytes (highByte s.cmd) v } := rfl

theorem hostWrite_cmdh (v : Byte) (s : State) :
    hostWrite 0x01 v s = issue { s with cmd := joinBytes v (lowByte s.cmd) } := rfl

theorem hostWrite_ignored {off : Offset} (h : 0x02 ≤ off.toNat) (v : Byte) (s : State) :
    hostWrite off v s = .next s := by
  obtain ⟨rfl, -⟩ | ⟨rfl, -⟩ | ⟨-, -, hw⟩ := hostWrite_cases off v s
  · exact absurd h (by decide)
  · exact absurd h (by decide)
  · exact hw

theorem issue_of_decode_ok {s : State} {i : Instr} (h : decode s.cmd = .ok i) :
    issue s = exec i s := by
  rw [issue, h]

theorem issue_of_decode_error {s : State} {e : CmdError} (h : decode s.cmd = .error e) :
    issue s = .next (refuseCommand e s) := by
  rw [issue, h]

/-! ### The history of events (spec/20_memory.md R85) -/

/-- A body appends to the trace of its own transaction and never rewrites what lies before. -/
theorem commandBody_past (i : Instr) (s : State) : (commandBody i s).past = s.past := by
  cases i with
  | init | flush | platch | pclock | wait n => rfl
  | rdpad p => simp [commandBody, rdpadBody_eq, framePads_eq]
  | rdmouse p => simp [commandBody, rdmouseBody_eq]
  | setsens p level => simp [commandBody, setsensBody_eq]
  | sample l => simp [commandBody, sampleBody]
  | classify p =>
    apply classifyBody_induction (fun u => u.past = s.past)
    case first => rw [framePads_eq]; rfl
    case frame => intro u hu; rw [framePads_eq]; exact hu
    case mouse => intro u hu; rw [rdmouseBody_eq]; exact hu
    case brand => exact fun u b hu => hu
    case result => exact fun u v hu => hu

/-- A command, run or refused, moves the finished transaction's events to the past. -/
theorem exec_past {i : Instr} {s t : State} (h : exec i s = .next t) :
    t.past = s.past ++ s.trace := by
  obtain ⟨e, -, rfl⟩ | ⟨-, rfl⟩ := exec_cases h
  · rfl
  · exact commandBody_past i (openTransaction s)

theorem issue_past {s t : State} (h : issue s = .next t) : t.past = s.past ++ s.trace := by
  obtain ⟨i, -, hi⟩ | ⟨e, -, he⟩ := issue_cases s
  · exact exec_past (hi.symm.trans h)
  · cases he.symm.trans h
    rfl

theorem hostWrite_cmdh_past {v : Byte} {s t : State} (h : hostWrite 0x01 v s = .next t) :
    t.past = s.past ++ s.trace := by
  have hissue := (hostWrite_cmdh v s).symm.trans h
  exact (issue_past hissue :)

/-- The events up to `t` are those up to `s` with more added at the end. -/
def HistoryExtends (s t : State) : Prop := ∃ es, t.past ++ t.trace = s.past ++ s.trace ++ es

/-- A new transaction adds its own trace. -/
theorem HistoryExtends.of_past {s t : State} (h : t.past = s.past ++ s.trace) :
    HistoryExtends s t := ⟨t.trace, by rw [h]⟩

/-- An input that opens no transaction adds no event. -/
theorem HistoryExtends.of_same {s t : State} (hpast : t.past = s.past) (htrace : t.trace = s.trace) :
    HistoryExtends s t := ⟨[], by rw [hpast, htrace, List.append_nil]⟩

theorem hostWrite_historyExtends {off : Offset} {v : Byte} {s t : State}
    (h : hostWrite off v s = .next t) : HistoryExtends s t := by
  obtain ⟨-, hw⟩ | ⟨rfl, -⟩ | ⟨-, -, hw⟩ := hostWrite_cases off v s
  · cases hw.symm.trans h
    exact .of_same rfl rfl
  · exact .of_past (hostWrite_cmdh_past h)
  · cases hw.symm.trans h
    exact .of_same rfl rfl

/-- A reset that cuts a command keeps the past the command opened its transaction with; only that
transaction's own trace is cut (spec/60_exceptions.md R253). -/
theorem takeInput_historyExtends {i : Input} {s t : State} (h : takeInput i s = .next t) :
    HistoryExtends s t := by
  cases i with
  | read off =>
    cases h
    exact .of_same rfl rfl
  | write off v => exact hostWrite_historyExtends h
  | reset =>
    cases h
    exact .of_past rfl
  | issueThenReset v n =>
    obtain ⟨u, hu, rfl⟩ := hostWriteThenReset_cases h
    exact .of_past (hostWrite_cmdh_past hu :)

theorem step_historyExtends {s t : State} (h : step s = .next t) : HistoryExtends s t := by
  cases hin : s.inbox with
  | nil =>
    simp only [step, nextInput, hin] at h
    cases h
    exact .of_same rfl rfl
  | cons i rest =>
    rw [step_of_inbox s i rest hin] at h
    exact (takeInput_historyExtends h :)

end Sys2Proof.Machine
end

section
/-! PROOF. The settled obligations about the host interface and the history of events. -/

namespace Sys2Proof.Proofs

open Sys2Proof Sys2Proof.Machine Sys2Proof.Claims

/-- Settles O40: a transaction moves the trace before it to the past and appends its own
(`exec_past`), and a reset that cuts it cuts only its own trace. -/
theorem historyOnlyGrows : Obligations.HistoryOnlyGrows :=
  fun _ _ h => step_historyExtends h

/-- Settles O43: the map row by row, then the reserved offsets. -/
theorem registerMap : Obligations.RegisterMap := by
  unfold Obligations.RegisterMap
  intro s
  refine ⟨rfl, rfl, rfl, rfl, rfl, rfl, rfl, rfl, rfl, rfl, rfl, rfl, rfl, rfl, rfl, rfl, rfl, rfl,
    rfl, rfl, rfl, readRegister_reserved s⟩

/-- Settles O45. -/
theorem hostAccessesWithoutEffect : Obligations.HostAccessesWithoutEffect := by
  unfold Obligations.HostAccessesWithoutEffect
  refine ⟨fun s off rest h => ⟨step_read h, readRegister_reserved s off⟩, ?_, ?_⟩
  · intro s t off rest h ht
    obtain ⟨t', ht', hu⟩ := step_read_read h
    cases ht'.symm.trans ht
    exact ⟨_, readRegister s off, hu, rfl⟩
  · intro s off v rest hoff h
    rw [step_write h, hostWrite_ignored hoff]

/-- Settles O46: the written byte joins the old high byte. -/
theorem cmdlWrite : Obligations.CmdlWrite := by
  unfold Obligations.CmdlWrite
  intro s v rest h
  refine ⟨joinBytes (highByte s.cmd) v, lowByte_joinBytes _ _, highByte_joinBytes _ _, ?_⟩
  rw [step_write h, hostWrite_cmdl]

/-- Settles O47: the step issues the word `{v, CMDL}`, and `issue` follows the decoder. -/
theorem stepRunsDecodedCommand : Obligations.StepRunsDecodedCommand := by
  unfold Obligations.StepRunsDecodedCommand
  intro s v rest h
  have hstep : step s =
      issue { s with inbox := rest, cmd := joinBytes v (lowByte s.cmd) } := by
    rw [step_write h, hostWrite_cmdh]
  refine ⟨joinBytes v (lowByte s.cmd), lowByte_joinBytes _ _, highByte_joinBytes _ _, ?_, ?_⟩
  · exact fun i hi => hstep.trans (issue_of_decode_ok hi)
  · exact fun e he => hstep.trans (issue_of_decode_error he)

/-- Settles O50: both reads answer from the same state, and the halves join to the register. -/
theorem twoByteReadIsWhole : Obligations.TwoByteReadIsWhole := by
  unfold Obligations.TwoByteReadIsWhole
  intro s off r rest hr h
  obtain ⟨hlow, hhigh⟩ := readRegister_halves hr
  obtain ⟨t, ht, hu⟩ := step_read_read h
  refine ⟨t, _, lowByte r, highByte r, ht, hu, ?_, joinBytes_halves r, rfl⟩
  rw [hlow, hhigh]

/-- Settles O54: the reset takes the neighbours' fields from the state before it. -/
theorem resetKeepsNeighbours : Obligations.ResetKeepsNeighbours := by
  unfold Obligations.ResetKeepsNeighbours
  intro s rest h
  exact ⟨_, step_of_inbox s .reset rest h, rfl, rfl, rfl, rfl, rfl⟩

end Sys2Proof.Proofs
end

section
/-! PROOF. The command word: its fields as bit vectors and as numbers, what each format accepts and
refuses, the round trip with the encoder, the list of all commands, and the two host accesses that issue
a word. -/

namespace Sys2Proof

open Claims

/-! ### The fields of a word (spec/30_encoding.md R101) -/

section Fields
variable (c : Word)

@[simp] theorem opField_toNat : (opField c).toNat = op c := by
  have := c.isLt
  simp only [opField, op, BitVec.extractLsb'_toNat, Nat.shiftRight_eq_div_pow]
  omega

@[simp] theorem rsvField_toNat : (rsvField c).toNat = rsv c := by
  simp [rsvField, rsv, Nat.shiftRight_eq_div_pow]

@[simp] theorem selField_toNat : (selField c).toNat = sel c := by
  simp [selField, sel, Nat.shiftRight_eq_div_pow]

@[simp] theorem immField_toNat : (immField c).toNat = imm c := by
  simp [immField, imm]

theorem op_lt : op c < 16 := opField_toNat c ▸ (opField c).isLt

theorem rsvField_eq_zero_iff : rsvField c = 0 ↔ rsv c = 0 := by
  simp [← BitVec.toNat_inj]

theorem selField_eq_zero_iff : selField c = 0 ↔ sel c = 0 := by
  simp [← BitVec.toNat_inj]

theorem immField_eq_zero_iff : immField c = 0 ↔ imm c = 0 := by
  simp [← BitVec.toNat_inj]

theorem selField_eq_one_iff : selField c = 1 ↔ sel c = 1 := by
  simp [← BitVec.toNat_inj]

theorem ofNat_imm : BitVec.ofNat 8 (imm c) = immField c := by
  simp [← immField_toNat]

end Fields

theorem append_toNat_eq_add {k n : Nat} (x : BitVec k) (y : BitVec n) :
    (x ++ y).toNat = 2 ^ n * x.toNat + y.toNat := by
  rw [BitVec.toNat_append, ← Nat.shiftLeft_add_eq_or_of_lt y.isLt, Nat.shiftLeft_eq, Nat.mul_comm]

/-- A word built from its fields, as a number. -/
theorem wordOf_toNat (o : BitVec 4) (s : BitVec 2) (m : Byte) :
    (wordOf o s m).toNat = 4096 * o.toNat + 256 * s.toNat + m.toNat := by
  have happend : (wordOf o s m).toNat = (o ++ (0#2 ++ (s ++ m))).toNat := rfl
  simp only [happend, append_toNat_eq_add, BitVec.toNat_ofNat]
  omega

/-- `wordOf` writes the fields that are read back, with RSV = 0. -/
theorem wordOf_eq_iff (o : BitVec 4) (s : BitVec 2) (m : Byte) (c : Word) :
    wordOf o s m = c ↔ opField c = o ∧ rsvField c = 0 ∧ selField c = s ∧ immField c = m := by
  simp only [← BitVec.toNat_inj, wordOf_toNat, opField_toNat, rsvField_toNat, selField_toNat,
    immField_toNat, op, rsv, sel, imm, BitVec.ofNat_eq_ofNat, BitVec.toNat_ofNat]
  have := o.isLt
  have := s.isLt
  have := m.isLt
  omega

@[simp] theorem portOfSel_eq_some_iff (s : BitVec 2) (p : Port) :
    portOfSel s = some p ↔ selOfPort p = s := by
  revert s
  cases p <;> decide

@[simp] theorem lineOfSel_eq_some_iff (s : BitVec 2) (l : Line) :
    lineOfSel s = some l ↔ selOfLine l = s := by
  revert s
  cases l <;> decide

@[simp] theorem portOfSel_selOfPort (p : Port) : portOfSel (selOfPort p) = some p := by
  simp

@[simp] theorem lineOfSel_selOfLine (l : Line) : lineOfSel (selOfLine l) = some l := by
  simp

/-! ### What each format accepts and refuses (R102–R105, R108) -/

section Formats
variable (c : Word)

theorem decodeN_eq_formatN (i : Instr) : decodeN c i = formatN c i := by
  have hzero : c.toNat % 4096 = 0 ↔ rsv c = 0 ∧ sel c = 0 ∧ imm c = 0 := by
    unfold rsv sel imm
    omega
  simp only [decodeN, formatN, ne_eq, rsvField_eq_zero_iff, selField_eq_zero_iff,
    immField_eq_zero_iff, hzero, ← not_and_or, ite_not]

theorem decodeP_eq_formatP (i : Port → Instr) : decodeP c i = formatP c i := by
  simp only [decodeP, formatP, portOfSel, ne_eq, rsvField_eq_zero_iff, immField_eq_zero_iff,
    selField_eq_zero_iff, selField_eq_one_iff]
  split_ifs <;> rfl

theorem decodePL_eq_fields (i : Port → Byte → Instr) : decodePL c i =
    if rsv c ≠ 0 then .error .rsvd
    else if sel c = 0 then .ok (i .p1 (BitVec.ofNat 8 (imm c)))
    else if sel c = 1 then .ok (i .p2 (BitVec.ofNat 8 (imm c))) else .error .badsel := by
  simp only [decodePL, portOfSel, ne_eq, rsvField_eq_zero_iff, selField_eq_zero_iff,
    selField_eq_one_iff, ofNat_imm]
  split_ifs <;> rfl

theorem decodeL_eq_fields (i : Line → Instr) : decodeL c i =
    if rsv c ≠ 0 ∨ imm c ≠ 0 then .error .rsvd
    else if sel c = 0 then .ok (i .l0) else if sel c = 1 then .ok (i .l1)
    else .error .badsel := by
  simp only [decodeL, lineOfSel, ne_eq, rsvField_eq_zero_iff, immField_eq_zero_iff,
    selField_eq_zero_iff, selField_eq_one_iff]
  split_ifs <;> rfl

theorem decodeI_eq_fields (i : Byte → Instr) : decodeI c i =
    if c.toNat / 256 % 16 ≠ 0 then .error .rsvd else .ok (i (BitVec.ofNat 8 (imm c))) := by
  have hzero : c.toNat / 256 % 16 = 0 ↔ rsv c = 0 ∧ sel c = 0 := by
    unfold rsv sel
    omega
  simp only [decodeI, ne_eq, rsvField_eq_zero_iff, selField_eq_zero_iff, hzero, ofNat_imm,
    not_and_or]

end Formats

/-! ### Refusals (spec/30_encoding.md R107, R108) -/

section Refusals
variable (c : Word) (e : CmdError)

theorem decodeN_eq_error_iff (i : Instr) :
    decodeN c i = .error e ↔ e = .rsvd ∧ c.toNat % 4096 ≠ 0 := by
  rw [decodeN_eq_formatN, formatN]
  split_ifs with h <;> simp [h, eq_comm]

theorem decodeP_eq_error_iff (i : Port → Instr) :
    decodeP c i = .error e ↔ e = .rsvd ∧ (rsv c ≠ 0 ∨ imm c ≠ 0) ∨
      e = .badsel ∧ rsv c = 0 ∧ imm c = 0 ∧ 2 ≤ sel c := by
  rw [decodeP_eq_formatP, formatP]
  split_ifs with hbits h0 h1 <;> grind

theorem decodePL_eq_error_iff (i : Port → Byte → Instr) :
    decodePL c i = .error e ↔ e = .rsvd ∧ rsv c ≠ 0 ∨ e = .badsel ∧ rsv c = 0 ∧ 2 ≤ sel c := by
  rw [decodePL_eq_fields]
  split_ifs with hrsv h0 h1 <;> grind

theorem decodeL_eq_error_iff (i : Line → Instr) :
    decodeL c i = .error e ↔ e = .rsvd ∧ (rsv c ≠ 0 ∨ imm c ≠ 0) ∨
      e = .badsel ∧ rsv c = 0 ∧ imm c = 0 ∧ 2 ≤ sel c := by
  rw [decodeL_eq_fields]
  split_ifs with hbits h0 h1 <;> grind

theorem decodeI_eq_error_iff (i : Byte → Instr) :
    decodeI c i = .error e ↔ e = .rsvd ∧ c.toNat / 256 % 16 ≠ 0 := by
  rw [decodeI_eq_fields]
  split_ifs with h <;> simp [h, eq_comm]

/-- The word has a legal opcode, but a nonzero bit where its format requires 0. -/
def ReservedBitSet : Prop :=
  ((op c = 1 ∨ op c = 2 ∨ op c = 7 ∨ op c = 8) ∧ c.toNat % 4096 ≠ 0) ∨
  ((op c = 3 ∨ op c = 4 ∨ op c = 5 ∨ op c = 9) ∧ (rsv c ≠ 0 ∨ imm c ≠ 0)) ∨
  (op c = 6 ∧ rsv c ≠ 0) ∨
  (op c = 0xA ∧ c.toNat / 256 % 16 ≠ 0)

/-- Only SEL is wrong: it names no port and no input line. -/
def SelNamesNothing : Prop :=
  ((op c = 3 ∨ op c = 4 ∨ op c = 5 ∨ op c = 9) ∧ rsv c = 0 ∧ imm c = 0 ∧ 2 ≤ sel c) ∨
  (op c = 6 ∧ rsv c = 0 ∧ 2 ≤ sel c)

/-- The three ways the decoder refuses a word, one per code. -/
theorem decode_eq_error_iff :
    decode c = .error e ↔ e = .illop ∧ (op c = 0 ∨ 0xB ≤ op c) ∨ e = .rsvd ∧ ReservedBitSet c ∨
      e = .badsel ∧ SelNamesNothing c := by
  unfold decode
  rw [opField_toNat]
  split
  case h_1 hop | h_2 hop | h_7 hop | h_8 hop =>
    simp [decodeN_eq_error_iff, ReservedBitSet, SelNamesNothing, hop]
  case h_3 hop | h_4 hop | h_5 hop =>
    simp [decodeP_eq_error_iff, ReservedBitSet, SelNamesNothing, hop]
  case h_6 hop => simp [decodePL_eq_error_iff, ReservedBitSet, SelNamesNothing, hop]
  case h_9 hop => simp [decodeL_eq_error_iff, ReservedBitSet, SelNamesNothing, hop]
  case h_10 hop => simp [decodeI_eq_error_iff, ReservedBitSet, SelNamesNothing, hop]
  case h_11 =>
    have hop : op c = 0 ∨ 0xB ≤ op c := by
      have := op_lt c
      grind
    have hres : ¬ ReservedBitSet c := by
      unfold ReservedBitSet
      omega
    have hsel : ¬ SelNamesNothing c := by
      unfold SelNamesNothing
      omega
    constructor
    · intro h
      cases h
      exact .inl ⟨rfl, hop⟩
    · rintro (⟨rfl, -⟩ | ⟨-, h⟩ | ⟨-, h⟩)
      · rfl
      · exact absurd h hres
      · exact absurd h hsel

end Refusals

/-! ### The round trip (R106, R109) -/

section RoundTrip

@[simp] theorem fields_wordOf (o : BitVec 4) (s : BitVec 2) (m : Byte) :
    opField (wordOf o s m) = o ∧ rsvField (wordOf o s m) = 0 ∧ selField (wordOf o s m) = s ∧
      immField (wordOf o s m) = m :=
  (wordOf_eq_iff o s m _).1 rfl

/-- The decoder reads back every command the encoder writes. -/
@[simp] theorem decode_encode (i : Instr) : decode (encode i) = .ok i := by
  cases i with
  | init | flush | platch | pclock => rfl
  | rdpad p | rdmouse p | classify p => simp [decode, encode, decodeP]
  | setsens p level => simp [decode, encode, decodePL]
  | sample l => simp [decode, encode, decodeL]
  | wait n => simp [decode, encode, decodeI]

/-- Two commands have different words. -/
theorem encode_injective : Function.Injective encode := by
  intro i j h
  have hij : decode (encode i) = decode (encode j) := by rw [h]
  simpa using hij

variable {c : Word} {k : Nat} {j : Instr}

/-- A word is its opcode, SEL and IMM8 as soon as its RSV is 0. -/
theorem eq_wordOf (hop : (opField c).toNat = k) (hrsv : rsvField c = 0) :
    c = wordOf (BitVec.ofNat 4 k) (selField c) (immField c) := by
  subst hop
  exact ((wordOf_eq_iff _ _ _ c).2 ⟨by simp [-opField_toNat], hrsv, rfl, rfl⟩).symm

theorem eq_of_decodeN_ok {i : Instr} (hop : (opField c).toNat = k) (h : decodeN c i = .ok j) :
    j = i ∧ c = wordOf (BitVec.ofNat 4 k) 0 0 := by
  unfold decodeN at h
  split_ifs at h with hbits
  simp only [ne_eq, not_or, not_not] at hbits
  obtain ⟨hrsv, hsel, himm⟩ := hbits
  cases h
  exact ⟨rfl, by rw [eq_wordOf hop hrsv, hsel, himm]⟩

theorem eq_of_decodeP_ok {i : Port → Instr} (hop : (opField c).toNat = k)
    (h : decodeP c i = .ok j) : ∃ p, j = i p ∧ c = wordOf (BitVec.ofNat 4 k) (selOfPort p) 0 := by
  unfold decodeP at h
  split_ifs at h with hbits
  simp only [ne_eq, not_or, not_not] at hbits
  obtain ⟨hrsv, himm⟩ := hbits
  split at h
  next p hp =>
    cases h
    exact ⟨p, rfl, by rw [eq_wordOf hop hrsv, himm, (portOfSel_eq_some_iff _ p).1 hp]⟩
  next => cases h

theorem eq_of_decodePL_ok {i : Port → Byte → Instr} (hop : (opField c).toNat = k)
    (h : decodePL c i = .ok j) :
    ∃ p v, j = i p v ∧ c = wordOf (BitVec.ofNat 4 k) (selOfPort p) v := by
  unfold decodePL at h
  split_ifs at h with hrsv
  rw [ne_eq, not_not] at hrsv
  split at h
  next p hp =>
    cases h
    exact ⟨p, _, rfl, by rw [(portOfSel_eq_some_iff _ p).1 hp, ← eq_wordOf hop hrsv]⟩
  next => cases h

theorem eq_of_decodeL_ok {i : Line → Instr} (hop : (opField c).toNat = k)
    (h : decodeL c i = .ok j) : ∃ l, j = i l ∧ c = wordOf (BitVec.ofNat 4 k) (selOfLine l) 0 := by
  unfold decodeL at h
  split_ifs at h with hbits
  simp only [ne_eq, not_or, not_not] at hbits
  obtain ⟨hrsv, himm⟩ := hbits
  split at h
  next l hl =>
    cases h
    exact ⟨l, rfl, by rw [eq_wordOf hop hrsv, himm, (lineOfSel_eq_some_iff _ l).1 hl]⟩
  next => cases h

theorem eq_of_decodeI_ok {i : Byte → Instr} (hop : (opField c).toNat = k)
    (h : decodeI c i = .ok j) : ∃ n, j = i n ∧ c = wordOf (BitVec.ofNat 4 k) 0 n := by
  unfold decodeI at h
  split_ifs at h with hbits
  simp only [ne_eq, not_or, not_not] at hbits
  obtain ⟨hrsv, hsel⟩ := hbits
  cases h
  exact ⟨_, rfl, by rw [← hsel, ← eq_wordOf hop hrsv]⟩

/-- A word that decodes to a command is the word the encoder writes for it. -/
theorem encode_of_decode_ok (h : decode c = .ok j) : encode j = c := by
  unfold decode at h
  split at h
  case h_1 hop | h_2 hop | h_7 hop | h_8 hop =>
    obtain ⟨rfl, rfl⟩ := eq_of_decodeN_ok hop h
    rfl
  case h_3 hop | h_4 hop | h_5 hop =>
    obtain ⟨p, rfl, rfl⟩ := eq_of_decodeP_ok hop h
    rfl
  case h_6 hop =>
    obtain ⟨p, v, rfl, rfl⟩ := eq_of_decodePL_ok hop h
    rfl
  case h_9 hop =>
    obtain ⟨l, rfl, rfl⟩ := eq_of_decodeL_ok hop h
    rfl
  case h_10 hop =>
    obtain ⟨n, rfl, rfl⟩ := eq_of_decodeI_ok hop h
    rfl
  case h_11 => cases h

theorem decode_eq_ok_iff : decode c = .ok j ↔ encode j = c where
  mp := encode_of_decode_ok
  mpr h := h ▸ decode_encode j

end RoundTrip

/-! ### Assembler source (spec/30_encoding.md R111) -/

theorem assemble_of_wellFormed {a : Asm} (h : a.wellFormed = true) : assemble a = some a.words :=
  if_pos h

@[simp] theorem portInRange_iff (n : Nat) : portInRange n = true ↔ n = 1 ∨ n = 2 := by
  simp [portInRange]

@[simp] theorem lineInRange_iff (n : Nat) : lineInRange n = true ↔ n = 0 ∨ n = 1 := by
  simp [lineInRange]

@[simp] theorem immInRange_iff (v : Nat) : immInRange v = true ↔ v ≤ 255 := by
  simp [immInRange]

@[simp] theorem rawInRange_iff (w : Nat) : rawInRange w = true ↔ w ≤ 0xFFFF := by
  simp [rawInRange]

theorem selOfPort_portOfNumber {n : Nat} (h : n = 1 ∨ n = 2) :
    (selOfPort (portOfNumber n)).toNat = n - 1 := by
  obtain rfl | rfl := h <;> rfl

theorem selOfLine_lineOfNumber {n : Nat} (h : n = 0 ∨ n = 1) :
    (selOfLine (lineOfNumber n)).toNat = n := by
  obtain rfl | rfl := h <;> rfl

/-- A word's number, as the syntax table adds it up. -/
theorem wordOf_eq_ofNat (o : BitVec 4) (s : BitVec 2) (m : Byte) :
    wordOf o s m = BitVec.ofNat 16 (0x1000 * o.toNat + 0x100 * s.toNat + m.toNat) := by
  rw [← wordOf_toNat, BitVec.ofNat_toNat, BitVec.setWidth_eq]

theorem immediate_toNat {v : Nat} (h : v ≤ 255) : (BitVec.ofNat 8 v).toNat = v := by
  rw [BitVec.toNat_ofNat]
  omega

/-! ### All commands (spec/30_encoding.md R106) -/

/-- The two ports. -/
def allPorts : List Port := [.p1, .p2]

/-- The two data lines. -/
def allLines : List Line := [.l0, .l1]

/-- The 256 values of IMM8. -/
def allBytes : List Byte := (List.finRange 256).map BitVec.ofFin

/-- Every command with every operand: the four without one, then format P, L, I and PL. -/
def allCommands : List Instr :=
  List.flatten [[.init, .flush, .platch, .pclock], allPorts.map .rdpad, allPorts.map .rdmouse,
    allPorts.map .classify, allLines.map .sample, allBytes.map .wait,
    (allPorts ×ˢ allBytes).map fun operands => .setsens operands.1 operands.2]

theorem allPorts_nodup : allPorts.Nodup := by decide

theorem allLines_nodup : allLines.Nodup := by decide

theorem allBytes_nodup : allBytes.Nodup :=
  (List.nodup_finRange 256).map fun _ _ h => BitVec.ofFin.inj h

@[simp] theorem mem_allPorts (p : Port) : p ∈ allPorts := by
  cases p <;> decide

@[simp] theorem mem_allLines (l : Line) : l ∈ allLines := by
  cases l <;> decide

@[simp] theorem mem_allBytes (v : Byte) : v ∈ allBytes :=
  List.mem_map.2 ⟨v.toFin, List.mem_finRange _, rfl⟩

theorem mem_allCommands (i : Instr) : i ∈ allCommands := by
  cases i <;> simp [allCommands]

theorem allCommands_length : allCommands.length = 780 := by
  simp [allCommands, allPorts, allLines, allBytes]

theorem allCommands_nodup : allCommands.Nodup := by
  have hrdpad := allPorts_nodup.map fun _ _ => Instr.rdpad.inj
  have hrdmouse := allPorts_nodup.map fun _ _ => Instr.rdmouse.inj
  have hclassify := allPorts_nodup.map fun _ _ => Instr.classify.inj
  have hsample := allLines_nodup.map fun _ _ => Instr.sample.inj
  have hwait := allBytes_nodup.map fun _ _ => Instr.wait.inj
  have hsetsens := (allPorts_nodup.product allBytes_nodup).map
    (f := fun operands => Instr.setsens operands.1 operands.2) fun _ _ h =>
      Prod.ext (Instr.setsens.inj h).1 (Instr.setsens.inj h).2
  rw [allCommands, List.nodup_flatten]
  constructor
  · simp [*]
  · simp [List.disjoint_left]

end Sys2Proof

namespace Sys2Proof.Machine

/-! ### The two accesses of a command word (spec/30_encoding.md R113, R73) -/

/-- The first access leaves CMDH as it was and the second overwrites it, so the word issued is `w`. -/
theorem step_issueAccesses {s : State} {w : Word} {rest : List Input}
    (h : s.inbox = issueAccesses w ++ rest) :
    ∃ t, step s = .next t ∧ step t = issue { s with inbox := rest, cmd := w } := by
  refine ⟨_, step_write h, ?_⟩
  rw [step_write rfl, hostWrite_cmdh]
  simp

end Sys2Proof.Machine
end

section
/-! PROOF. The settled obligations about the encoding. -/

namespace Sys2Proof.Proofs

open Sys2Proof Sys2Proof.Machine Sys2Proof.Claims

/-- Settles O1: `decode_encode` one way, and the other way an accepted word is rebuilt from the fields
its format leaves free (`encode_of_decode_ok`). -/
theorem decodeIffEncode : Obligations.DecodeIffEncode :=
  fun _ _ => decode_eq_ok_iff

/-- Settles O2: the words of all commands, different because the encoder is injective. -/
theorem legalWordsAre780 : Obligations.LegalWordsAre780 := by
  unfold Obligations.LegalWordsAre780
  refine ⟨allCommands.map encode, allCommands_nodup.map encode_injective, ?_, fun w => ?_⟩
  · rw [List.length_map, allCommands_length]
  · simp [decode_eq_ok_iff, mem_allCommands]

/-- Settles O49: the second access issues the word, which decodes to the command. -/
theorem programWordRuns : Obligations.ProgramWordRuns := by
  unfold Obligations.ProgramWordRuns
  intro s i rest h
  obtain ⟨t, ht, hissue⟩ := step_issueAccesses h
  exact ⟨t, ht, hissue.trans (issue_of_decode_ok (decode_encode i))⟩

/-- Settles O3: `decode_eq_error_iff` read for each of the five codes. -/
theorem decodeErrorsExact : Obligations.DecodeErrorsExact := by
  unfold Obligations.DecodeErrorsExact
  intro c
  simp [decode_eq_error_iff, ReservedBitSet, SelNamesNothing]

/-- Settles O4: the decoder evaluates on closed words. -/
theorem knownWordsDecode : Obligations.KnownWordsDecode :=
  ⟨rfl, rfl, rfl, rfl, rfl, rfl, rfl, rfl⟩

/-- Settles O5: each operand's number goes into its field, SEL being the port's number less 1. -/
theorem assemblerWords : Obligations.AssemblerWords := by
  unfold Obligations.AssemblerWords
  refine ⟨rfl, rfl, rfl, rfl, fun n hn => ⟨?_, ?_, ?_, fun v hv => ?_⟩, fun n hn => ?_,
    fun v hv => ?_, fun w hw => ?_⟩
  case refine_1 | refine_2 | refine_3 =>
    rw [assemble_of_wellFormed (by simpa [Asm.wellFormed] using hn)]
    simp [Asm.words, encode, wordOf_eq_ofNat, selOfPort_portOfNumber hn]
  case refine_4 =>
    rw [assemble_of_wellFormed (by simpa [Asm.wellFormed] using ⟨hn, hv⟩)]
    simp only [Asm.words, encode, wordOf_eq_ofNat, selOfPort_portOfNumber hn, immediate_toNat hv]
    rfl
  case refine_5 =>
    rw [assemble_of_wellFormed (by simpa [Asm.wellFormed] using hn)]
    simp [Asm.words, encode, wordOf_eq_ofNat, selOfLine_lineOfNumber hn]
  case refine_6 =>
    rw [assemble_of_wellFormed (by simpa [Asm.wellFormed] using hv)]
    simp only [Asm.words, encode, wordOf_eq_ofNat, immediate_toNat hv]
    rfl
  case refine_7 =>
    exact assemble_of_wellFormed (by simpa [Asm.wellFormed] using hw)

/-- Settles O6: each expansion is the words of the commands it stands for. -/
theorem pseudoInstructionWords : Obligations.PseudoInstructionWords := by
  unfold Obligations.PseudoInstructionWords
  refine ⟨rfl, fun n hn => ?_, rfl⟩
  have hport : portInRange n = true := (portInRange_iff n).2 hn
  exact ⟨_, _, assemble_of_wellFormed hport, assemble_of_wellFormed hport,
    assemble_of_wellFormed hport⟩

end Sys2Proof.Proofs
end

section
/-! PROOF. The other parts of the invariant: FPOS, BRAND, and nothing read before INIT. -/

namespace Sys2Proof.Machine

/-! ### FPOS is zero or valid (spec/10_state.md R48, R49) -/

/-- FPOS is 0x00, or has V = 1. -/
def fposZeroOrValid (f : Byte) : Prop := f = 0x00 ∨ fposValid f = true

theorem positionKnownOrZero_iff (s : State) :
    positionKnownOrZero s ↔
      fposZeroOrValid s.fpos ∧ (s.csr.initd = false → s.fpos = 0x00) := Iff.rfl

theorem fposZeroOrValid_unknown : fposZeroOrValid fposUnknown := .inl rfl

theorem fposZeroOrValid_latched : fposZeroOrValid fposLatched := .inr (by decide)

theorem fposZeroOrValid_afterFrame : fposZeroOrValid fposAfterFrame := .inr (by decide)

/-- Clock pulses neither lose a known position nor make an unknown one known. -/
theorem fposZeroOrValid_fposAfter (n : Nat) {f : Byte} (h : fposZeroOrValid f) :
    fposZeroOrValid (fposAfter n f) := by
  obtain rfl | hvalid := h
  · exact .inl (fposAfter_unknown n)
  · rw [fposValid_iff] at hvalid
    have hcount := fposAfter_toNat_of_valid n f hvalid
    exact .inr ((fposValid_iff _).mpr (by omega))

theorem fposZeroOrValid_framePads (s : State) : fposZeroOrValid (framePads s).fpos := by
  rw [framePads_eq]
  exact fposZeroOrValid_afterFrame

theorem fposZeroOrValid_rdmouseBody (p : Port) {s : State} (h : fposZeroOrValid s.fpos) :
    fposZeroOrValid (rdmouseBody p s).2.fpos := by
  rw [rdmouseBody_eq]
  exact fposZeroOrValid_fposAfter 16 h

theorem fposZeroOrValid_commandBody (i : Instr) {s : State} (h : fposZeroOrValid s.fpos) :
    fposZeroOrValid (commandBody i s).fpos := by
  cases i with
  | init => exact fposZeroOrValid_unknown
  | rdpad p => exact fposZeroOrValid_framePads s
  | rdmouse p => exact fposZeroOrValid_rdmouseBody p h
  | classify p =>
    apply classifyBody_induction (fun u => fposZeroOrValid u.fpos)
    case first => exact fposZeroOrValid_framePads _
    case frame => exact fun u _ => fposZeroOrValid_framePads u
    case mouse => exact fun u hu => fposZeroOrValid_rdmouseBody p hu
    case brand => exact fun u b hu => hu
    case result => exact fun u v hu => hu
  | setsens p level =>
    rw [commandBody, setsensBody_eq]
    exact fposZeroOrValid_unknown
  | platch => exact fposZeroOrValid_latched
  | pclock => exact fposZeroOrValid_fposAfter 1 h
  | flush | wait n => exact h
  | sample l => simpa [commandBody, sampleBody] using h

/-! ### Before INIT -/

/-- Where INITD is still 0 after a body, it was 0 before, and the command is not INIT and drives no
line. -/
theorem commandBody_before_init {i : Instr} {s : State} (hcheck : commandCheck i s = none)
    (h : (commandBody i s).csr.initd = false) :
    s.csr.initd = false ∧ i ≠ .init ∧ Claims.drivesLines i = false := by
  have hinit : i ≠ .init := by
    rintro rfl
    exact Bool.noConfusion h
  have hs : s.csr.initd = false := (commandBody_sameSetup hinit s).initd.symm.trans h
  refine ⟨hs, hinit, Bool.eq_false_iff.mpr fun hdrive => ?_⟩
  simp [initd_of_commandCheck hcheck hdrive] at hs

theorem positionKnownOrZero_commandBody {i : Instr} {s : State} (hcheck : commandCheck i s = none)
    (h : positionKnownOrZero s) : positionKnownOrZero (commandBody i s) := by
  obtain ⟨hfpos, hbefore⟩ := (positionKnownOrZero_iff s).mp h
  refine ⟨fposZeroOrValid_commandBody i hfpos, fun hnot => ?_⟩
  obtain ⟨hs, hinit, hdrive⟩ := commandBody_before_init hcheck hnot
  obtain ⟨-, hsame⟩ := commandBody_lines (i := i) (by simp [writesLines_iff, hinit, hdrive]) s
  exact hsame.trans (hbefore hs)

theorem positionKnownOrZero_registerInvariant : RegisterInvariant positionKnownOrZero where
  registersOnly _ _ h := h
  reset := ⟨.inl rfl, fun _ => rfl⟩
  refused _ _ h := h
  ran _ _ hcheck h := positionKnownOrZero_commandBody hcheck h

/-- The commands that leave INITD = 0 read no peripheral into a cached register: FLUSH zeroes the cached
registers, SAMPLE and WAIT leave them (spec/70_reset_and_hazards.md R273). -/
theorem nothingReadBeforeInit_commandBody {i : Instr} {s : State}
    (hcheck : commandCheck i s = none) (h : nothingReadBeforeInit s) :
    nothingReadBeforeInit (commandBody i s) := by
  intro hnot
  obtain ⟨hs, hinit, hdrive⟩ := commandBody_before_init hcheck hnot
  cases i with
  | init => exact absurd rfl hinit
  | rdpad p | rdmouse p | classify p | setsens p level | platch | pclock =>
    simp [Claims.drivesLines] at hdrive
  | flush => exact ⟨rfl, rfl, rfl, rfl, rfl⟩
  | wait n => exact h hs
  | sample l => simpa [commandBody, sampleBody] using h hs

theorem nothingReadBeforeInit_registerInvariant : RegisterInvariant nothingReadBeforeInit where
  registersOnly _ _ h := h
  reset _ := ⟨rfl, rfl, rfl, rfl, rfl⟩
  refused _ _ h := h
  ran _ _ hcheck h := nothingReadBeforeInit_commandBody hcheck h

/-! ### BRAND (spec/10_state.md R39) -/

theorem brandConsistent_framePads {s : State} (h : brandConsistent s) :
    brandConsistent (framePads s) := by
  rw [framePads_eq]
  exact h

theorem brandConsistent_rdmouseBody (p : Port) {s : State} (h : brandConsistent s) :
    brandConsistent (rdmouseBody p s).2 := by
  rw [rdmouseBody_eq]
  exact h

/-- FLUSH zeroes BRAND with BRANDV, CLASSIFY writes a brand only together with BRANDV, and no other
command writes either. -/
theorem brandConsistent_commandBody (i : Instr) {s : State} (h : brandConsistent s) :
    brandConsistent (commandBody i s) := by
  by_cases hw : Claims.writesBrand i
  · obtain ⟨p, rfl⟩ | rfl := hw
    · apply classifyBody_induction brandConsistent
      case first => exact brandConsistent_framePads fun _ => rfl
      case frame => exact fun u hu => brandConsistent_framePads hu
      case mouse => exact fun u hu => brandConsistent_rdmouseBody p hu
      case brand => exact fun u b _ hv => Bool.noConfusion hv
      case result => exact fun u v hu => hu
    · exact fun _ => rfl
  · obtain ⟨hbrand, hbrandv⟩ := commandBody_brand hw s
    exact fun hv => hbrand.trans (h (hbrandv.symm.trans hv))

theorem brandConsistent_registerInvariant : RegisterInvariant brandConsistent where
  registersOnly _ _ h := h
  reset _ := rfl
  refused _ _ h := h
  ran i _ _ h := brandConsistent_commandBody i h

end Sys2Proof.Machine
end

section
/-! PROOF. The port driver: a command's outcome from its check, the idle lines, the registers FPOS and
RES as the rules write them. -/

namespace Sys2Proof.Machine

open Claims

/-! ### Outcomes (spec/60_exceptions.md R242–R244) -/

theorem exec_of_check_none {i : Instr} {s : State} (h : commandCheck i s = none) :
    exec i s = .next (succeed (commandBody i (openTransaction s))) :=
  (exec_eq_runCommand i s).trans (runCommand_runs _ _ s h)

theorem exec_of_check_some {i : Instr} {s : State} {e : CmdError} (h : commandCheck i s = some e) :
    exec i s = .next (refuseCommand e s) :=
  (exec_eq_runCommand i s).trans (runCommand_refused _ _ s e h)

/-- The model's refusal is the one the rules write. -/
theorem refuseCommand_eq_refused (e : CmdError) (s : State) :
    refuseCommand e s = refused (errorCode e) s := rfl

theorem commandCheck_of_not_initd {i : Instr} {s : State} (hi : drivesLines i = true)
    (h : s.csr.initd = false) : commandCheck i s = some .notinit := by
  cases i with
  | init | flush | sample l | wait n => simp [drivesLines] at hi
  | rdmouse p => exact checkSeq_notinit s h
  | rdpad p | classify p | setsens p level | platch | pclock => exact checkInit_notinit s h

/-- Before INIT a command that drives the latch or clock line is refused with code 4. -/
theorem exec_of_not_initd {i : Instr} {s : State} (hi : drivesLines i = true)
    (h : s.csr.initd = false) : exec i s = .next (refused 4 s) :=
  exec_of_check_some (commandCheck_of_not_initd hi h)

theorem errorCode_ne_zero (e : CmdError) : errorCode e ≠ 0 := by
  cases e <;> decide

/-- A command that ends with ERR = 0 passed its check and ran. -/
theorem ran_of_err_eq_zero {i : Instr} {s t : State} (h : exec i s = .next t)
    (herr : t.csr.err = 0) : t = succeed (commandBody i (openTransaction s)) := by
  obtain ⟨e, -, rfl⟩ | ⟨-, ht⟩ := exec_cases h
  · exact absurd herr (errorCode_ne_zero e)
  · exact ht

/-! ### The lines (spec/10_state.md R45–R47; spec/40_port_driver.md R131) -/

/-- A line-driving command that runs leaves the direction mask alone, and INIT writes 0xFC there. -/
theorem commandBody_pdir_of_init_or_drives {i : Instr} {s : State}
    (hi : i = .init ∨ (drivesLines i = true ∧ s.pdir = 0xFC)) : (commandBody i s).pdir = 0xFC := by
  obtain rfl | ⟨hdrive, hpdir⟩ := hi
  · rfl
  · have hinit : i ≠ .init := by
      rintro rfl
      exact Bool.noConfusion hdrive
    exact (commandBody_sameSetup hinit s).pdir.trans hpdir

/-- What the block drives with POUT at the idle level and INIT's direction mask. -/
theorem drivenLevel_idle {s : State} (hpout : s.pout = 0x08) (hpdir : s.pdir = 0xFC) (j : Fin 8) :
    drivenLevel s j = if j.val < 2 then none else some (decide (j.val = 3)) := by
  rw [drivenLevel, hpout, hpdir]
  revert j
  decide

/-! ### FPOS and RES -/

/-- `fposClocked` over the value of the byte (R49). -/
theorem fposClocked_eq_ite (f : Byte) :
    fposClocked f = if 128 ≤ f.toNat ∧ f.toNat < 255 then f + 1 else f := by
  have hcond : (fposValid f = true ∧ (fposCount f).toNat < 127) ↔
      (128 ≤ f.toNat ∧ f.toNat < 255) := by
    have := f.isLt
    rw [fposValid_iff, fposCount_toNat]
    omega
  exact if_congr hcond rfl rfl

/-- The level a command samples as its first event is the environment's first answer. -/
theorem rawLevel_openTransaction (l : Line) (s : State) :
    rawLevel l (openTransaction s) = answer s [.s l] 0 l :=
  rawLevel_of_since (since_openTransaction s) l

/-- The whole state after a sample of either line. -/
theorem afterSample_eq (l : Line) (s : State) :
    afterSample l s =
      { s with levels0 := s.levels0.drop (if l = .l0 then 1 else 0),
               levels1 := s.levels1.drop (if l = .l1 then 1 else 0), draws := s.draws + 1,
               trace := s.trace ++ [.s l] } := by
  cases l <;> rfl

/-- A level as the result register holds it (R140). -/
theorem setWidth_ofBool (b : Bool) :
    (BitVec.ofBool b).setWidth 16 = if b = true then (0x0001 : Word) else 0x0000 := by
  cases b <;> rfl

end Sys2Proof.Machine
end

section
/-! PROOF. The settled obligations about the port driver, and the invariant's step. -/

namespace Sys2Proof.Proofs

open Sys2Proof Sys2Proof.Machine Sys2Proof.Claims

/-- Settles O57: each part of the invariant is a property of the block's registers that reset
establishes and every refusal and every command body keeps. -/
theorem stepKeepsInvariant : Obligations.StepKeepsInvariant := by
  unfold Obligations.StepKeepsInvariant
  intro s t hs hstep
  obtain ⟨hrest, herr, hpos, hmouse1, hmouse2, hbrand, hnothing⟩ := hs
  have hmice := miceConsistent_registerInvariant.of_step
    ((miceConsistent_iff s).mpr ⟨hmouse1, hmouse2⟩) hstep
  obtain ⟨hmouse1', hmouse2'⟩ := (miceConsistent_iff t).mp hmice
  exact ⟨linesAtRest_registerInvariant.of_step hrest hstep,
    errorRecorded_registerInvariant.of_step herr hstep,
    positionKnownOrZero_registerInvariant.of_step hpos hstep, hmouse1', hmouse2',
    brandConsistent_registerInvariant.of_step hbrand hstep,
    nothingReadBeforeInit_registerInvariant.of_step hnothing hstep⟩

/-- Settles O9: one clock pulse, with FPOS advanced as `fposClocked_eq_ite` says. -/
theorem pclockCommand : Obligations.PclockCommand := by
  unfold Obligations.PclockCommand
  refine ⟨fun c hop => ?_, fun s => exec_of_not_initd rfl, fun s hinit => ?_⟩
  · simp only [decode, opField_toNat, hop, decodeN_eq_formatN]
  · rw [exec_pclock_ready s hinit, clockPulse_eq, openTransaction_fpos, fposClocked_eq_ite]
    rfl

/-- Settles O10: the sample is the transaction's first event, so its level is the environment's first
answer (`rawLevel_openTransaction`). -/
theorem sampleCommand : Obligations.SampleCommand := by
  unfold Obligations.SampleCommand
  refine ⟨fun c hop => ?_, fun l s => ?_⟩
  · simp only [decode, opField_toNat, hop, decodeL_eq_fields]
  · have hrun : exec (.sample l) s = .next (succeed (sampleBody l (openTransaction s))) :=
      exec_of_check_none rfl
    rw [hrun, sampleBody, rawLevel_openTransaction, setWidth_ofBool, afterSample_eq]
    rfl

/-- Settles O13: a command that ends with ERR = 0 ran, and its body leaves POUT at the idle level
under INIT's direction mask. -/
theorem linesIdleAfterCommand : Obligations.LinesIdleAfterCommand := by
  unfold Obligations.LinesIdleAfterCommand
  intro i s t hi h herr
  obtain rfl := ran_of_err_eq_zero h herr
  have hpout : (commandBody i (openTransaction s)).pout = 0x08 :=
    commandBody_pout_idle ((writesLines_iff i).mpr (hi.imp_right And.left)) _
  have hlevel := drivenLevel_idle (s := succeed (commandBody i (openTransaction s))) hpout
    (commandBody_pdir_of_init_or_drives hi)
  refine ⟨hpout, hlevel 0, hlevel 1, hlevel 2, hlevel 3, fun j hj => ?_⟩
  rw [hlevel j, if_neg (by omega), decide_eq_false (by omega)]

/-- Settles O7: INIT has no check that depends on state, and its body is two port writes. -/
theorem initCommand : Obligations.InitCommand := by
  unfold Obligations.InitCommand
  refine ⟨fun c hop => ?_, fun s => exec_of_check_none (i := .init) rfl⟩
  simp only [decode, opField_toNat, hop, decodeN_eq_formatN]

/-- Settles O8: one latch pulse after INIT. -/
theorem platchCommand : Obligations.PlatchCommand := by
  unfold Obligations.PlatchCommand
  refine ⟨fun c hop => ?_, fun s => exec_of_not_initd rfl,
    fun s hinit => exec_of_check_none (i := .platch) (checkInit_ready s hinit)⟩
  simp only [decode, opField_toNat, hop, decodeN_eq_formatN]

/-- Settles O11: WAIT has no check that depends on state, and its body is one delay event. -/
theorem waitCommand : Obligations.WaitCommand := by
  unfold Obligations.WaitCommand
  refine ⟨fun c hop => ?_, fun n s => exec_of_check_none (i := .wait n) rfl⟩
  simp only [decode, opField_toNat, hop, decodeI_eq_fields]

end Sys2Proof.Proofs
end

section
/-! PROOF. The frame reader: the mask a line's raw levels leave, bit by bit, and RDPAD's masks as
the masks of the levels ready. -/

namespace Sys2Proof.Machine

open Claims

/-! ### The mask of a list of raw levels (spec/41_frame_reader.md R162, R163, R169) -/

/-- The mask a frame read accumulates from the raw levels of one line, the first level first. -/
def maskOfLevels (levels : List Bool) : Word := levels.foldl shiftIntoMask 0

/-- Frame bit `k` of a read of `n` bits, inverted, at its place in the mask. -/
theorem maskOfLevels_getLsbD {n k : Nat} {levels : List Bool} (hlen : levels.length = n)
    (hn : n ≤ 16) (hk : k < n) :
    (maskOfLevels levels).getLsbD (16 - n + k) = !(levels.getD k true) := by
  have hplace : 16 - n + k + levels.length - 16 = k := by omega
  rw [maskOfLevels, foldl_shiftIntoMask_bit _ _ (by omega) _ (by omega), if_neg (by omega), hplace]

/-- A read of fewer than 16 bits leaves zeros below its frame bit 0. -/
theorem maskOfLevels_getLsbD_below {n k : Nat} {levels : List Bool} (hlen : levels.length = n)
    (hk : k < 16 - n) : (maskOfLevels levels).getLsbD k = false := by
  rw [maskOfLevels, foldl_shiftIntoMask_bit _ _ (by omega) _ (by omega), if_pos (by omega)]
  exact BitVec.getLsbD_zero

/-- In a whole frame, frame bit `k` is mask bit `k`. -/
theorem maskOfLevels_getLsbD_frame {k : Nat} {levels : List Bool} (hlen : levels.length = 16)
    (hk : k < 16) : (maskOfLevels levels).getLsbD k = !(levels.getD k true) := by
  simpa using maskOfLevels_getLsbD hlen le_rfl hk

theorem maskOfLevels_replicate_true : maskOfLevels (List.replicate 16 true) = 0x0000 := by decide

theorem maskOfLevels_replicate_false : maskOfLevels (List.replicate 16 false) = 0xFFFF := by decide

/-- A list that holds `b` at each of its `n` places, read with any default. -/
theorem eq_replicate_of_getD {n : Nat} {levels : List Bool} {b d : Bool} (hlen : levels.length = n)
    (h : ∀ k, k < n → levels.getD k d = b) : levels = List.replicate n b := by
  refine List.ext_getElem (by simp [hlen]) fun k hk _ => ?_
  rw [List.getElem_replicate, ← List.getD_eq_getElem levels d hk]
  exact h k (hlen ▸ hk)

/-! ### Frame reads of the levels ready (R160, R168) -/

/-- Each lane's mask accumulates the levels of its own line. -/
theorem readFrame_of {n : Nat} {s : State} (q : Port) (hpos : 0 < n)
    (h : n ≤ (s.levels (dataLine q)).length) :
    (readFrame n s).1.of q = maskOfLevels ((s.levels (dataLine q)).take n) := by
  cases q with
  | p1 => exact readFrame_m1 n s hpos h
  | p2 => exact readFrame_m2 n s hpos h

/-- Each lane's mask is that of the levels ready on its own line. -/
theorem readFrame_of_ready {n : Nat} {s : State} {levels rest : List Bool} (q : Port)
    (hpos : 0 < n) (hlen : levels.length = n) (h : s.levels (dataLine q) = levels ++ rest) :
    (readFrame n s).1.of q = maskOfLevels levels := by
  rw [readFrame_of q hpos (by simp [h, hlen]), h, List.take_left' hlen]

/-! ### RDPAD (spec/42_pad_decoder.md R182) -/

theorem rdpadBody_pad (p q : Port) (s : State) :
    (rdpadBody p s).pad q = (frame16 s).1.of q := by
  cases q <;> rfl

theorem rdpadBody_levels (p : Port) (s : State) (l : Line) :
    (rdpadBody p s).levels l = (s.levels l).drop 16 := by
  rw [rdpadBody_eq, framePads_eq]
  cases l <;> rfl

theorem openTransaction_levels (s : State) (l : Line) :
    (openTransaction s).levels l = s.levels l := by
  cases l <;> rfl

theorem succeed_pad (s : State) (q : Port) : (succeed s).pad q = s.pad q := by
  cases q <;> rfl

theorem succeed_levels (s : State) (l : Line) : (succeed s).levels l = s.levels l := by
  cases l <;> rfl

/-- After INIT, RDPAD runs. -/
theorem rdpad_ran {p : Port} {s t : State} (hinit : s.csr.initd = true)
    (h : exec (.rdpad p) s = .next t) : t = succeed (rdpadBody p (openTransaction s)) :=
  Host.Outcome.next.inj
    (h.symm.trans (exec_of_check_none (i := .rdpad p) (checkInit_ready s hinit)))

/-- The mask RDPAD of either port leaves for port `q` is that of the levels ready on `q`'s line. -/
theorem rdpad_pad_of_ready {p q : Port} {s t : State} {levels rest : List Bool}
    (hinit : s.csr.initd = true) (hlen : levels.length = 16)
    (hready : s.levels (dataLine q) = levels ++ rest) (h : exec (.rdpad p) s = .next t) :
    t.pad q = maskOfLevels levels := by
  rw [rdpad_ran hinit h, succeed_pad, rdpadBody_pad]
  exact readFrame_of_ready q (by omega) hlen ((openTransaction_levels s _).trans hready)

/-- RDPAD uses up sixteen levels of each line. -/
theorem rdpad_levels {p : Port} {s t : State} (hinit : s.csr.initd = true)
    (h : exec (.rdpad p) s = .next t) (l : Line) : t.levels l = (s.levels l).drop 16 := by
  rw [rdpad_ran hinit h, succeed_levels, rdpadBody_levels, openTransaction_levels]

end Sys2Proof.Machine
end

section
/-! PROOF. The settled obligations about the frame reader. -/

namespace Sys2Proof.Proofs

open Sys2Proof Sys2Proof.Machine Sys2Proof.Claims

/-- Settles O15: RDPAD leaves the mask of the sixteen levels ready, whose bits
`maskOfLevels_getLsbD_frame` gives. -/
theorem rdpadBitOrder : Obligations.RdpadBitOrder := by
  unfold Obligations.RdpadBitOrder
  intro p q s t a rest hinit hlen hready h
  have hpad : t.pad q = maskOfLevels a := rdpad_pad_of_ready hinit hlen hready h
  refine ⟨fun k hk => ?_, ?_, fun hones => ?_, fun hzeros => ?_⟩
  · rw [hpad, maskOfLevels_getLsbD_frame hlen hk]
  · rw [rdpad_levels hinit h, hready, List.drop_left' hlen]
  · rw [hpad, eq_replicate_of_getD hlen hones, maskOfLevels_replicate_true]
  · rw [hpad, eq_replicate_of_getD hlen hzeros, maskOfLevels_replicate_false]

/-- Settles O18: both masks are the mask of the same levels. -/
theorem lanesIndependent : Obligations.LanesIndependent := by
  unfold Obligations.LanesIndependent
  intro q p p' s s' t t' a r r' hinit hinit' hlen hready hready' h h'
  exact (rdpad_pad_of_ready hinit hlen hready h).trans
    (rdpad_pad_of_ready hinit' hlen hready' h').symm

/-- Settles O19: each mask is the mask of its line's `n` levels, whose bits
`maskOfLevels_getLsbD` and `maskOfLevels_getLsbD_below` give. -/
theorem readFrameBitPositions : Obligations.ReadFrameBitPositions := by
  unfold Obligations.ReadFrameBitPositions
  intro n s a b ra rb hpos hle ha hb hlevels0 hlevels1
  have hm1 : (readFrame n s).1.m1 = maskOfLevels a := readFrame_of_ready .p1 hpos ha hlevels0
  have hm2 : (readFrame n s).1.m2 = maskOfLevels b := readFrame_of_ready .p2 hpos hb hlevels1
  rw [hm1, hm2]
  exact ⟨fun _ => maskOfLevels_getLsbD ha hle, fun _ => maskOfLevels_getLsbD hb hle,
    fun _ hk => ⟨maskOfLevels_getLsbD_below ha hk, maskOfLevels_getLsbD_below hb hk⟩⟩

end Sys2Proof.Proofs
end

section
/-! PROOF. The pad decoder: which answer of the environment each mask bit of FRAME16 holds, RDPAD's
result and a second RDPAD, the mask of one active position. -/

namespace Sys2Proof.Machine

open Claims

/-! ### The samples of a frame read, in every environment (spec/41_frame_reader.md R160, R161) -/

/-- The state in which a frame read begun in `s` samples frame bit `k` of both lines. -/
def atFrameBit : Nat → State → State
  | 0, s => latchPulse s
  | k + 1, s => clockPulse (readFrame (k + 1) s).2

/-- The state in which SAMPLE_BOTH begun in `s` samples a line: line 1 comes after line 0. -/
def atLine : Line → State → State
  | .l0, s => s
  | .l1, s => afterSample .l0 s

theorem sampleBoth_of (m : Masks) (s : State) (q : Port) :
    (sampleBoth m s).1.of q =
      shiftIntoMask (m.of q) (rawLevel (dataLine q) (atLine (dataLine q) s)) := by
  cases q <;> rfl

theorem readFrame_one (s : State) : readFrame 1 s = sampleBoth Masks.zero (atFrameBit 0 s) := rfl

theorem readFrame_add_two (n : Nat) (s : State) :
    readFrame (n + 2) s = sampleBoth (readFrame (n + 1) s).1 (atFrameBit (n + 1) s) :=
  clockAndSample_snoc n _ _

/-- A frame read ends with its last SAMPLE_BOTH. -/
theorem readFrame_last (n : Nat) (s : State) :
    ∃ m, readFrame (n + 1) s = sampleBoth m (atFrameBit n s) := by
  cases n with
  | zero => exact ⟨_, readFrame_one s⟩
  | succ n => exact ⟨_, readFrame_add_two n s⟩

/-- Each lane's mask accumulates the levels sampled on its own line. -/
theorem readFrame_of_sampled (n : Nat) (s : State) (q : Port) :
    (readFrame (n + 1) s).1.of q =
      maskOfLevels ((List.range (n + 1)).map fun k =>
        rawLevel (dataLine q) (atLine (dataLine q) (atFrameBit k s))) := by
  induction n with
  | zero =>
    rw [readFrame_one, sampleBoth_of]
    cases q <;> rfl
  | succ n ih =>
    rw [readFrame_add_two, sampleBoth_of, ih, List.range_succ (n := n + 1), List.map_append,
      maskOfLevels, maskOfLevels, List.foldl_append]
    rfl

/-! ### The answers behind a frame's mask bits (R161–R163) -/

/-- The level sampled by event `e` of a transaction, taken where the events before it have happened. -/
theorem rawLevel_eq_answer {s u : State} {T : List Event} {e : Nat} {l : Line}
    (h : Since s u (T.take e)) (he : T[e]? = some (.s l)) : rawLevel l u = answer s T e l := by
  rw [rawLevel_of_since h, answer, List.take_add_one, he]
  rfl

theorem frame16Events_eq_frameTrace : frame16Events = frameTrace := by decide

/-- The samples of one frame bit and the clock pulse for the next one. -/
theorem frameTrace_take_next {k : Nat} (hk : k < 15) :
    frameTrace.take (4 * (k + 1) + 2) =
      frameTrace.take (4 * k + 2) ++ [.s .l0, .s .l1] ++ clockEvents := by
  revert k
  decide

theorem frameTrace_take_sample (l : Line) {k : Nat} (hk : k < 16) :
    frameTrace.take (4 * k + 2 + lineNumber l) =
      frameTrace.take (4 * k + 2) ++ [.s .l0].take (lineNumber l) := by
  revert k
  cases l <;> decide

theorem frameTrace_sample (l : Line) {k : Nat} (hk : k < 16) :
    frameTrace[4 * k + 2 + lineNumber l]? = some (.s l) := by
  revert k
  cases l <;> decide

/-- Frame bit `k` is sampled after two events of the frame and four more for each earlier bit. -/
theorem since_atFrameBit {s u : State} {es : List Event} (h : Since s u es) {k : Nat} (hk : k < 16) :
    Since s (atFrameBit k u) (es ++ frameTrace.take (4 * k + 2)) := by
  induction k with
  | zero => exact since_latchPulse h
  | succ k ih =>
    obtain ⟨m, hm⟩ := readFrame_last k u
    rw [frameTrace_take_next (by omega), atFrameBit, hm, ← List.append_assoc, ← List.append_assoc]
    exact since_clockPulse (since_sampleBoth (ih (by omega)) m)

theorem since_atLine {s u : State} {es : List Event} (h : Since s u es) (l : Line) :
    Since s (atLine l u) (es ++ [.s .l0].take (lineNumber l)) := by
  cases l with
  | l0 => simpa [atLine, lineNumber] using h
  | l1 => exact since_afterSample h .l0

/-- The level of frame bit `k` in a FRAME16 that comes after the events `es`. -/
theorem frameBit_eq_answer {s u : State} {es : List Event} (h : Since s u es) (fs : List Event)
    (l : Line) {k : Nat} (hk : k < 16) :
    rawLevel l (atLine l (atFrameBit k u)) =
      answer s (es ++ (frameTrace ++ fs)) (es.length + 4 * k + 2 + lineNumber l) l := by
  have hlt : 4 * k + 2 + lineNumber l < frameTrace.length :=
    (List.getElem?_eq_some_iff.mp (frameTrace_sample l hk)).1
  rw [show es.length + 4 * k + 2 + lineNumber l = es.length + (4 * k + 2 + lineNumber l) by omega]
  refine rawLevel_eq_answer ?_ ?_
  · rw [List.take_length_add_append, List.take_append_of_le_length hlt.le, frameTrace_take_sample l hk,
      ← List.append_assoc]
    exact since_atLine (since_atFrameBit h hk) l
  · rw [List.getElem?_append_right (by omega), Nat.add_sub_cancel_left,
      List.getElem?_append_left hlt, frameTrace_sample l hk]

/-- Both masks of a FRAME16 that comes after the events `es` hold the answers drawn at its samples. -/
theorem frameRead_frame16 {s u : State} {es : List Event} (h : Since s u es) (fs : List Event) :
    frameRead (frame16 u).1 s (es ++ (frameTrace ++ fs)) es.length := by
  have hmask (q : Port) : maskRead ((frame16 u).1.of q) s (es ++ (frameTrace ++ fs)) es.length
      (dataLine q) := by
    intro k hk
    rw [frame16, readFrame_of_sampled, maskOfLevels_getLsbD_frame (by simp) hk,
      ← frameBit_eq_answer h fs (dataLine q) hk]
    simp [hk]
  exact ⟨hmask .p1, hmask .p2⟩

/-! ### RDPAD (spec/42_pad_decoder.md R182) -/

/-- The whole state after RDPAD's body. -/
theorem rdpadBody_state (p : Port) (s : State) :
    rdpadBody p s =
      { s with pad1 := (frame16 s).1.m1, pad2 := (frame16 s).1.m2,
               res := if p = .p1 then (frame16 s).1.m1 else (frame16 s).1.m2,
               pout := 0x08, fpos := fposAfterFrame, levels0 := s.levels0.drop 16,
               levels1 := s.levels1.drop 16, draws := s.draws + 32,
               trace := s.trace ++ frameTrace } := by
  rw [rdpadBody_eq, framePads_eq, frame16Events_eq_frameTrace]
  cases p <;> rfl

/-- RDPAD's result is the named port's mask. -/
theorem rdpad_res {p : Port} {s t : State} (hinit : s.csr.initd = true)
    (h : exec (.rdpad p) s = .next t) : t.res = t.pad p := by
  rw [rdpad_ran hinit h, succeed_pad, rdpadBody_pad]
  rfl

theorem rdpad_initd {p : Port} {s t : State} (hinit : s.csr.initd = true)
    (h : exec (.rdpad p) s = .next t) : t.csr.initd = true := by
  rw [rdpad_ran hinit h]
  exact (commandBody_sameSetup (i := .rdpad p) (by simp) _).initd.trans hinit

/-- A second RDPAD that is answered the same levels on port `q`'s line leaves the same mask. -/
theorem rdpad_again_pad {p q : Port} {s t u : State} {levels rest : List Bool}
    (hinit : s.csr.initd = true) (hlen : levels.length = 16)
    (hready : s.levels (dataLine q) = levels ++ (levels ++ rest))
    (h : exec (.rdpad p) s = .next t) (h' : exec (.rdpad p) t = .next u) : u.pad q = t.pad q := by
  have hready' : t.levels (dataLine q) = levels ++ rest := by
    rw [rdpad_levels hinit h, hready, List.drop_left' hlen]
  exact (rdpad_pad_of_ready (rdpad_initd hinit h) hlen hready' h').trans
    (rdpad_pad_of_ready hinit hlen hready h).symm

/-! ### One active position (R180, R181, R184) -/

theorem buttonPosition_eq_namedPosition (button : Button) :
    buttonPosition button = namedPosition button := by
  cases button <;> rfl

theorem namedPosition_lt (button : Button) : namedPosition button < 16 := by
  cases button <;> decide

/-- No two buttons share a position: R180 lists them in the order of their constructors. -/
theorem namedPosition_injective : Function.Injective namedPosition :=
  Function.LeftInverse.injective (g := Button.ofNat) fun button => by cases button <;> rfl

theorem pressed_eq (mask : Word) (button : Button) :
    pressed mask button = mask.getLsbD (namedPosition button) := by
  rw [pressed, buttonPosition_eq_namedPosition]

theorem getLsbD_singleBit {j k : Nat} (hk : k < 16) :
    (BitVec.ofNat 16 (2 ^ j)).getLsbD k = decide (j = k) := by
  rw [BitVec.getLsbD_ofNat, Nat.testBit_two_pow, decide_eq_true hk, Bool.true_and]

/-- A line at raw 0 at position `j` alone gives the mask of that single bit. -/
theorem maskOfLevels_singlePosition {levels : List Bool} {j : Nat} (hlen : levels.length = 16)
    (h : ∀ k, k < 16 → levels.getD k true = decide (k ≠ j)) :
    maskOfLevels levels = BitVec.ofNat 16 (2 ^ j) := by
  refine BitVec.eq_of_getLsbD_eq fun k hk => ?_
  rw [maskOfLevels_getLsbD_frame hlen hk, h k hk, getLsbD_singleBit hk]
  simp [eq_comm]

/-- The mask of one button's single bit shows that button and no other. -/
theorem pressed_singleBit (button other : Button) :
    pressed (BitVec.ofNat 16 (2 ^ namedPosition button)) other = decide (other = button) := by
  rw [pressed_eq, getLsbD_singleBit (namedPosition_lt other)]
  exact decide_eq_decide.mpr (namedPosition_injective.eq_iff.trans eq_comm)

end Sys2Proof.Machine
end

section
/-! PROOF. The settled obligations about the pad decoder. -/

namespace Sys2Proof.Proofs

open Sys2Proof Sys2Proof.Machine Sys2Proof.Claims

/-- Settles O14: the masks are those of the command's own FRAME16, whose bits `frameRead_frame16` ties
to the environment's answers. -/
theorem rdpadCommand : Obligations.RdpadCommand := by
  unfold Obligations.RdpadCommand
  refine ⟨fun c hop => ?_, fun p s => exec_of_not_initd rfl, fun p s hinit => ?_⟩
  · simp only [decode, opField_toNat, hop, decodeP_eq_formatP]
  · refine ⟨(frame16 (openTransaction s)).1, ?_, ?_⟩
    · simpa using frameRead_frame16 (since_openTransaction s) []
    · have hrun : exec (.rdpad p) s = .next (succeed (rdpadBody p (openTransaction s))) :=
        exec_of_check_none (checkInit_ready s hinit)
      rw [hrun, rdpadBody_state]
      rfl

/-- Settles O16: the frame's mask is the button's single bit (`maskOfLevels_singlePosition`), and no two
buttons share a position. -/
theorem singlePositionSingleButton : Obligations.SinglePositionSingleButton := by
  unfold Obligations.SinglePositionSingleButton
  refine ⟨buttonPosition_eq_namedPosition, pressed_eq, ?_⟩
  intro p button s t a rest hinit hlen hready hactive h
  have hpad : t.pad p = BitVec.ofNat 16 (2 ^ namedPosition button) :=
    (rdpad_pad_of_ready hinit hlen hready h).trans (maskOfLevels_singlePosition hlen hactive)
  refine ⟨hpad, rdpad_res hinit h, fun other => ?_⟩
  rw [hpad, pressed_singleBit]

/-- Settles O17: each lane's second mask is that of the same levels (`rdpad_again_pad`), and RES is the
named port's mask both times. -/
theorem rdpadIdempotent : Obligations.RdpadIdempotent := by
  unfold Obligations.RdpadIdempotent
  intro p s t u a b ra rb hinit ha hb hlevels0 hlevels1 h h'
  have hpad (q : Port) : u.pad q = t.pad q := by
    cases q with
    | p1 => exact rdpad_again_pad hinit ha hlevels0 h h'
    | p2 => exact rdpad_again_pad hinit hb hlevels1 h h'
  refine ⟨hpad .p1, hpad .p2, ?_⟩
  rw [rdpad_res (rdpad_initd hinit h) h', rdpad_res hinit h, hpad]

end Sys2Proof.Proofs
end

section
/-! PROOF. The mouse decoder: the sign-magnitude decode by the value of the byte, which answer of the
environment each bit of a READ8 holds, the whole state after RDMOUSE and its refusal with SEQ. -/

namespace Sys2Proof.Machine

open Claims

/-! ### The sign-magnitude decode (spec/43_mouse_decoder.md R192, R193) -/

/-- The decode over the value of the byte. -/
theorem smdec_eq_ite (r : Byte) :
    smdec r = if r.toNat < 128 then (r.toNat : Int) else -((r.toNat % 128 : Nat) : Int) := by
  by_cases h : r.toNat < 128
  · have hsign : ¬ r.getLsbD 7 = true := (bit7_iff r).not.mpr (by omega)
    rw [smdec, if_neg hsign, if_pos h]
  · have hsign : r.getLsbD 7 = true := (bit7_iff r).mpr (by omega)
    rw [smdec, if_pos hsign, if_neg h]
    simp

/-- With the sign bit clear the byte is its own decode. -/
theorem smdec_of_lt {r : Byte} (h : r.toNat < 128) : smdec r = (r.toNat : Int) := by
  rw [smdec_eq_ite, if_pos h]

/-- With the sign bit set the magnitude is negated. -/
theorem smdec_of_toNat_eq_add {r : Byte} {n : Nat} (hn : n < 128) (h : r.toNat = 128 + n) :
    smdec r = -(n : Int) := by
  rw [smdec_eq_ite, if_neg (by omega)]
  omega

/-- Setting the sign bit of a magnitude. -/
theorem or_sign_toNat {r : Byte} (h : r.toNat < 128) : (r ||| 0x80).toNat = 128 + r.toNat := by
  rw [BitVec.or_comm, BitVec.toNat_or]
  exact (Nat.two_pow_add_eq_or_of_lt (i := 7) h 1).symm

/-- The register pattern the rules print is the decode modulo 256. -/
theorem deltaRegister_eq_deltaPattern (r : Byte) : deltaRegister r = deltaPattern r := by
  have hr := r.isLt
  rw [deltaRegister, deltaPattern, smdec_eq_ite]
  by_cases h : r.toNat < 128
  · rw [if_pos h, if_pos h]
    rw [BitVec.ofInt_natCast, BitVec.ofNat_toNat, BitVec.setWidth_eq]
  · rw [if_neg h, if_neg h]
    apply BitVec.eq_of_toNat_eq
    rw [BitVec.toNat_ofInt, BitVec.toNat_ofNat]
    omega

theorem smdec_eq_zero_iff (r : Byte) : smdec r = 0 ↔ r = 0x00 ∨ r = 0x80 := by
  have hr := r.isLt
  rw [smdec_eq_ite, ← BitVec.toNat_inj, ← BitVec.toNat_inj]
  simp only [BitVec.ofNat_eq_ofNat, BitVec.toNat_ofNat]
  split <;> omega

/-- Every value of the range is reached: by its magnitude, with the sign bit set for a negative one. -/
theorem exists_smdec_eq {v : Int} (hlo : -127 ≤ v) (hhi : v ≤ 127) : ∃ r : Byte, smdec r = v := by
  obtain ⟨n, rfl | rfl⟩ := v.eq_nat_or_neg
  · have hn : (BitVec.ofNat 8 n).toNat = n := Nat.mod_eq_of_lt (by omega)
    exact ⟨BitVec.ofNat 8 n, by rw [smdec_of_lt (by omega), hn]⟩
  · have hn : (BitVec.ofNat 8 (128 + n)).toNat = 128 + n := Nat.mod_eq_of_lt (by omega)
    exact ⟨BitVec.ofNat 8 (128 + n), smdec_of_toNat_eq_add (by omega) hn⟩

/-- The model's MouseState is the one the rules write. -/
theorem decodeMouse_eq_mouseFrom (ry rx : Byte) (mask : Word) :
    decodeMouse ry rx mask = mouseFrom ry rx mask := by
  rw [decodeMouse, mouseStatus_eq_statusPattern, deltaRegister_eq_deltaPattern,
    deltaRegister_eq_deltaPattern]
  rfl

/-! ### The byte of a list of raw levels (R191) -/

/-- The byte a READ8 accumulates from the raw levels of its line, the first level first. -/
def byteOfLevels (levels : List Bool) : Byte := levels.foldl shiftIntoByte 0

/-- The first level is the most significant bit, and each is inverted. -/
theorem byteOfLevels_getLsbD {j : Nat} {levels : List Bool} (hlen : levels.length = 8) (hj : j < 8) :
    (byteOfLevels levels).getLsbD (7 - j) = !(levels.getD j true) := by
  have hplace : levels.length - 1 - (7 - j) = j := by omega
  rw [byteOfLevels, foldl_shiftIntoByte_bit _ _ (by omega) _ (by omega), if_pos (by omega), hplace]

/-- READ8 of the levels ready. -/
theorem read8_of_ready {l : Line} {s : State} {levels rest : List Bool} (hlen : levels.length = 8)
    (h : s.levels l = levels ++ rest) : (read8 l s).1 = byteOfLevels levels := by
  rw [read8, readBits_value l 8 0 s (by simp [h, hlen]), h, List.take_left' hlen, byteOfLevels]

theorem read8_levels (l : Line) (s : State) : (read8 l s).2.levels l = (s.levels l).drop 8 := by
  rw [read8_state]
  cases l <;> rfl

theorem lineOfPort_eq_dataLine (p : Port) : lineOfPort p = dataLine p := by
  cases p <;> rfl

/-- The two bytes of RDMOUSE are those of the levels ready on its line, Y first. -/
theorem mouseBytes_of_ready {p : Port} {s : State} {y x rest : List Bool} (hy : y.length = 8)
    (hx : x.length = 8) (h : s.levels (dataLine p) = y ++ (x ++ rest)) :
    yByte p s = byteOfLevels y ∧ xByte p s = byteOfLevels x := by
  rw [← lineOfPort_eq_dataLine] at h
  refine ⟨read8_of_ready hy h, read8_of_ready (rest := rest) hx ?_⟩
  rw [read8_levels, h, List.drop_left' hy]

/-! ### The samples of a READ8, in every environment (R191) -/

/-- The state in which a READ8 begun in `s` samples its bit number `j`. -/
def atByteBit (l : Line) (j : Nat) (s : State) : State :=
  delay .settle (clockPulse (readBits l j 0 s).2)

theorem read8_of_sampled (l : Line) (s : State) :
    (read8 l s).1 = byteOfLevels ((List.range 8).map fun j => rawLevel l (atByteBit l j s)) :=
  readBits_fold l 8 0 s

theorem read8Events_length (l : Line) : (read8Events l).length = 32 := by
  rw [read8Events, length_copies]
  rfl

theorem read8Events_take_sample (l : Line) {j : Nat} (hj : j < 8) :
    (read8Events l).take (4 * j + 3) =
      copies j (clockEvents ++ [Event.d .settle, .s l]) ++ (clockEvents ++ [Event.d .settle]) := by
  revert j
  cases l <;> decide

theorem read8Events_sample (l : Line) {j : Nat} (hj : j < 8) :
    (read8Events l)[4 * j + 3]? = some (.s l) := by
  revert j
  cases l <;> decide

/-- Bit `j` is sampled after `j` whole rounds, its own clock pulse and the settling delay. -/
theorem since_atByteBit {s u : State} {es : List Event} (h : Since s u es) (l : Line) {j : Nat}
    (hj : j < 8) : Since s (atByteBit l j u) (es ++ (read8Events l).take (4 * j + 3)) := by
  rw [read8Events_take_sample l hj, ← List.append_assoc, ← List.append_assoc]
  exact since_delay (since_clockPulse (since_readBits h l j 0)) .settle

/-- The byte of a READ8 that comes after the events `es` holds the answers drawn at its samples. -/
theorem byteRead_read8 {s u : State} {es : List Event} (h : Since s u es) (fs : List Event)
    (l : Line) : byteRead (read8 l u).1 s (es ++ (read8Events l ++ fs)) es.length l := by
  intro j hj
  have hlt : 4 * j + 3 < (read8Events l).length := by rw [read8Events_length]; omega
  have hanswer : rawLevel l (atByteBit l j u) =
      answer s (es ++ (read8Events l ++ fs)) (es.length + (4 * j + 3)) l := by
    refine rawLevel_eq_answer ?_ ?_
    · rw [List.take_length_add_append, List.take_append_of_le_length hlt.le]
      exact since_atByteBit h l hj
    · rw [List.getElem?_append_right (by omega), Nat.add_sub_cancel_left,
        List.getElem?_append_left hlt, read8Events_sample l hj]
  rw [read8_of_sampled, byteOfLevels_getLsbD (by simp) hj, Nat.add_assoc, ← hanswer]
  simp [hj]

theorem since_read8 {s u : State} {es : List Event} (h : Since s u es) (l : Line) :
    Since s (read8 l u).2 (es ++ read8Events l) :=
  since_readBits h l 8 0

theorem mouseTrace_eq_read8Events (l : Line) :
    mouseTrace l = read8Events l ++ read8Events l := by
  cases l <;> rfl

/-- Both bytes of an RDMOUSE body that comes after the events `es` hold the answers drawn at its
samples, Y first. -/
theorem byteRead_mouseBytes {s u : State} {es : List Event} (h : Since s u es) (fs : List Event)
    (p : Port) :
    byteRead (yByte p u) s (es ++ (mouseTrace (dataLine p) ++ fs)) es.length (dataLine p) ∧
    byteRead (xByte p u) s (es ++ (mouseTrace (dataLine p) ++ fs)) (es.length + 32) (dataLine p) := by
  rw [yByte, xByte, lineOfPort_eq_dataLine, mouseTrace_eq_read8Events, List.append_assoc]
  refine ⟨byteRead_read8 h _ _, ?_⟩
  have hx := byteRead_read8 (since_read8 h (dataLine p)) fs (dataLine p)
  rwa [List.append_assoc, List.length_append, read8Events_length] at hx

/-! ### RDMOUSE (R194, R197) -/

theorem checkSeq_eq_none_iff (s : State) :
    checkSeq s = none ↔ s.csr.initd = true ∧ s.fpos = 0x8F := by
  unfold checkSeq
  split_ifs with hinit hfpos
  · exact iff_of_true rfl ⟨hinit, hfpos⟩
  · exact iff_of_false (by simp) fun ⟨_, h⟩ => hfpos h
  · exact iff_of_false (by simp) fun ⟨h, _⟩ => hinit h

/-- Out of sequence RDMOUSE is refused with code 5. -/
theorem rdmouse_refused_seq (p : Port) {s : State} (hinit : s.csr.initd = true)
    (hfpos : s.fpos ≠ 0x8F) : exec (.rdmouse p) s = .next (refused 5 s) :=
  exec_of_check_some (i := .rdmouse p) (checkSeq_seq s hinit hfpos)

/-- The state after an RDMOUSE that ran in `s` and read the raw bytes `ry` and `rx` (R194). -/
def afterRdmouse (p : Port) (ry rx : Byte) (s : State) : State :=
  { s with
    mouse1 := if p = .p1 then mouseFrom ry rx s.pad1 else s.mouse1,
    mouse2 := if p = .p2 then mouseFrom ry rx s.pad2 else s.mouse2,
    res := (statusPattern (deltaPattern ry) (deltaPattern rx)).setWidth 16,
    pout := 0x08, fpos := 0x9F, csr := { s.csr with err := 0 },
    trace := mouseTrace (dataLine p), past := s.past ++ s.trace,
    levels0 := s.levels0.drop (if p = .p1 then 16 else 0),
    levels1 := s.levels1.drop (if p = .p2 then 16 else 0), draws := s.draws + 16 }

theorem mouseEvents_eq_mouseTrace (p : Port) :
    mouseEvents (lineOfPort p) = mouseTrace (dataLine p) := by
  rw [mouseEvents_eq, mouseTrace_eq_read8Events, lineOfPort_eq_dataLine]

/-- In sequence RDMOUSE runs, and `afterRdmouse` of its two raw bytes is the state it leaves. -/
theorem rdmouse_runs (p : Port) {s : State} (hinit : s.csr.initd = true) (hfpos : s.fpos = 0x8F) :
    exec (.rdmouse p) s = .next
      (afterRdmouse p (yByte p (openTransaction s)) (xByte p (openTransaction s)) s) := by
  have hrun : exec (.rdmouse p) s = .next (succeed (rdmouseBody p (openTransaction s)).2) :=
    exec_of_check_none (i := .rdmouse p) (checkSeq_ready s hinit hfpos)
  have hcount : fposAfter 16 (openTransaction s).fpos = 0x9F := by
    rw [openTransaction_fpos, hfpos]
    exact fposAfter_mouse
  rw [hrun, rdmouseBody_eq, hcount]
  simp only [decodeMouse_eq_mouseFrom, mouseEvents_eq_mouseTrace]
  rfl

/-- An RDMOUSE that ends with ERR = 0 ran, in sequence. -/
theorem rdmouse_ran {p : Port} {s t : State} (h : exec (.rdmouse p) s = .next t)
    (herr : t.csr.err = 0) : s.csr.initd = true ∧ s.fpos = 0x8F ∧
      t = afterRdmouse p (yByte p (openTransaction s)) (xByte p (openTransaction s)) s := by
  obtain ⟨e, -, rfl⟩ | ⟨hcheck, -⟩ := exec_cases h
  · exact absurd herr (errorCode_ne_zero e)
  · obtain ⟨hinit, hfpos⟩ := (checkSeq_eq_none_iff s).mp hcheck
    exact ⟨hinit, hfpos, Host.Outcome.next.inj (h.symm.trans (rdmouse_runs p hinit hfpos))⟩

theorem afterRdmouse_mouse (p : Port) (ry rx : Byte) (s : State) :
    (afterRdmouse p ry rx s).mouse p = mouseFrom ry rx (s.pad p) := by
  cases p <;> rfl

theorem afterRdmouse_pad (p q : Port) (ry rx : Byte) (s : State) :
    (afterRdmouse p ry rx s).pad q = s.pad q := by
  cases q <;> rfl

theorem afterRdmouse_levels (p : Port) (ry rx : Byte) (s : State) :
    (afterRdmouse p ry rx s).levels (dataLine p) = (s.levels (dataLine p)).drop 16 := by
  cases p <;> rfl

/-! ### RDPAD and RDMOUSE on one latch pulse (R195) -/

/-- After INIT, RDPAD leaves RDMOUSE in sequence, with its own frame's events as the trace. -/
theorem rdpad_fpos_trace {p : Port} {s t : State} (hinit : s.csr.initd = true)
    (h : exec (.rdpad p) s = .next t) : t.fpos = 0x8F ∧ t.trace = frameTrace := by
  rw [rdpad_ran hinit h, rdpadBody_state]
  exact ⟨rfl, rfl⟩

/-- The 32 levels of a mouse frame: the pad's sixteen, the Y byte's and the X byte's. -/
theorem exists_mouseFrame_parts {f : List Bool} (h : f.length = 32) :
    ∃ a y x : List Bool, f = a ++ (y ++ x) ∧ a.length = 16 ∧ y.length = 8 ∧ x.length = 8 := by
  refine ⟨f.take 16, (f.drop 16).take 8, (f.drop 16).drop 8, ?_, ?_, ?_, ?_⟩
  · rw [List.take_append_drop, List.take_append_drop]
  all_goals simp [h]

theorem clockPulses_append (a b : List Event) :
    clockPulses (a ++ b) = clockPulses a + clockPulses b := List.count_append

/-- One latch pulse and 31 clock pulses, 15 of them in the pad's frame. -/
theorem mouseFrame_pulses (l : Line) : latchPulses (frameTrace ++ mouseTrace l) = 1 ∧
    clockPulses (frameTrace ++ mouseTrace l) = 31 := by
  cases l <;> decide

theorem mouseTrace_sample (l : Line) {j : Nat} (hj : j < 16) :
    (mouseTrace l)[4 * j + 3]? = some (.s l) ∧
    clockPulses ((mouseTrace l).take (4 * j + 3)) = j + 1 := by
  revert j
  cases l <;> decide

/-- Frame bit `16 + j` is sampled on the mouse's line after `16 + j` clock pulses. -/
theorem mouseFrame_sample (l : Line) {j : Nat} (hj : j < 16) :
    (frameTrace ++ mouseTrace l)[64 + 4 * j + 3]? = some (.s l) ∧
    clockPulses ((frameTrace ++ mouseTrace l).take (64 + 4 * j + 3)) = 16 + j := by
  have hlen : frameTrace.length = 64 := by decide
  have hframe : clockPulses frameTrace = 15 := by decide
  obtain ⟨hsample, hpulses⟩ := mouseTrace_sample l hj
  rw [Nat.add_assoc, ← hlen]
  constructor
  · rw [List.getElem?_append_right (by omega), Nat.add_sub_cancel_left, hsample]
  · rw [List.take_length_add_append, clockPulses_append, hframe, hpulses]
    omega

end Sys2Proof.Machine
end

section
/-! PROOF. The settled obligations about the mouse decoder. -/

namespace Sys2Proof.Proofs

open Sys2Proof Sys2Proof.Machine Sys2Proof.Claims

/-- Settles O20: the bytes are those of the command's own two READ8s, whose bits `byteRead_mouseBytes`
ties to the environment's answers. -/
theorem rdmouseCommand : Obligations.RdmouseCommand := by
  unfold Obligations.RdmouseCommand
  refine ⟨fun c hop => ?_, fun p s => exec_of_not_initd rfl, fun p s => rdmouse_refused_seq p,
    fun p s hinit hfpos => ?_⟩
  · simp only [decode, opField_toNat, hop, decodeP_eq_formatP]
  · obtain ⟨hy, hx⟩ := byteRead_mouseBytes (since_openTransaction s) [] p
    simp only [List.nil_append, List.append_nil, List.length_nil, Nat.zero_add] at hy hx
    exact ⟨_, _, hy, hx, rdmouse_runs p hinit hfpos⟩

/-- Settles O22: RDPAD takes the first sixteen levels and leaves RDMOUSE in sequence, whose two bytes are
the next eight levels each. -/
theorem mouseFrameOnOneLatch : Obligations.MouseFrameOnOneLatch := by
  unfold Obligations.MouseFrameOnOneLatch
  intro p s f rest hinit hlen hready
  obtain ⟨a, y, x, rfl, ha, hy, hx⟩ := exists_mouseFrame_parts hlen
  rw [List.append_assoc, List.append_assoc] at hready
  obtain ⟨t, hpad⟩ : ∃ t, exec (.rdpad p) s = .next t :=
    ⟨_, exec_of_check_none (i := .rdpad p) (checkInit_ready s hinit)⟩
  obtain ⟨hfpos, htrace⟩ := rdpad_fpos_trace hinit hpad
  have hmask : t.pad p = maskOfLevels a := rdpad_pad_of_ready hinit ha hready hpad
  have hlevels : t.levels (dataLine p) = y ++ (x ++ rest) := by
    rw [rdpad_levels hinit hpad, hready, List.drop_left' ha]
  obtain ⟨hry, hrx⟩ := mouseBytes_of_ready hy hx ((openTransaction_levels t _).trans hlevels)
  have hmouse := rdmouse_runs p (rdpad_initd hinit hpad) hfpos
  rw [hry, hrx] at hmouse
  obtain ⟨hlatch, hclock⟩ := mouseFrame_pulses (dataLine p)
  refine ⟨t, _, byteOfLevels y, byteOfLevels x, hpad, hmouse, fun k hk => ?_, fun j hj => ?_,
    fun j hj => ?_, ?_, ?_, rfl, rfl, ?_, ?_, ?_, ?_⟩
  · rw [afterRdmouse_pad, hmask, maskOfLevels_getLsbD_frame ha hk, List.getD_append _ _ _ _ (by omega)]
  · rw [byteOfLevels_getLsbD hy hj, List.getD_append_right _ _ _ _ (by omega),
      List.getD_append _ _ _ _ (by omega), ha, Nat.add_sub_cancel_left]
  · rw [byteOfLevels_getLsbD hx hj, List.getD_append_right _ _ _ _ (by omega),
      List.getD_append_right _ _ _ _ (by omega), ha, hy, show 24 + j - 16 - 8 = j by omega]
  · rw [afterRdmouse_mouse, afterRdmouse_pad]
  · rw [afterRdmouse_mouse]
    rfl
  · rw [afterRdmouse_levels, hlevels, ← List.append_assoc, List.drop_left' (by simp [hy, hx])]
  · rw [htrace]
    exact hlatch
  · rw [htrace]
    exact hclock
  · rw [htrace]
    exact fun j hj => mouseFrame_sample (dataLine p) hj

/-- Settles O23: the first RDMOUSE left FPOS = 0x9F. -/
theorem secondRdmouseRefused : Obligations.SecondRdmouseRefused := by
  unfold Obligations.SecondRdmouseRefused
  intro p q s t h herr
  obtain ⟨hinit, -, rfl⟩ := rdmouse_ran h herr
  exact rdmouse_refused_seq q hinit (by decide : (0x9F : Byte) ≠ 0x8F)

/-- Settles O25: FLUSH leaves INITD and FPOS, so the RDMOUSE runs, and MRAW is the high byte of the mask
that FLUSH zeroed. -/
theorem flushedRawStatus : Obligations.FlushedRawStatus := by
  unfold Obligations.FlushedRawStatus
  intro p s hinit hfpos
  have hflush : exec .flush s = .next (succeed (flushBody (openTransaction s))) :=
    exec_of_check_none (i := .flush) rfl
  refine ⟨_, _, hflush, rdmouse_runs p hinit hfpos, rfl, ?_⟩
  have hpad : (succeed (flushBody (openTransaction s))).pad p = 0 := by cases p <;> rfl
  rw [afterRdmouse_mouse, hpad]
  simp [mouseFrom]

/-- Settles O21, from the decode over the value of the byte (`smdec_eq_ite`). -/
theorem signMagnitudeDecode : Obligations.SignMagnitudeDecode := by
  unfold Obligations.SignMagnitudeDecode
  refine ⟨fun r => ?_, smdec_eq_zero_iff, fun r _ hr => ?_, fun v => exists_smdec_eq⟩
  · obtain ⟨hlo, hhi⟩ := smdec_bounds r
    exact ⟨hlo, hhi, deltaRegister_toInt r, deltaRegister_eq_deltaPattern r, deltaRegister_ne_min r⟩
  · have hlt : r.toNat < 128 := by omega
    exact ⟨smdec_of_lt hlt, smdec_of_toNat_eq_add hlt (or_sign_toNat hlt)⟩

end Sys2Proof.Proofs
end

section
/-! PROOF. The device identifier: the class of a mask by its nibble, CLASSIFY's first frame and its mouse
probe, the whole state each of its two outcomes leaves, and the events each other command adds. -/

namespace Sys2Proof.Machine

open Claims

/-! ### The class of a mask (spec/44_device_identifier.md R211, R212) -/

/-- The device-id nibble as a number; it is the same field of a word as OP. -/
theorem idNibble_toNat (m : Word) : (idNibble m).toNat = m.toNat / 4096 := opField_toNat m

/-- The class over the value of the mask. -/
theorem cls_eq_ite (m : Word) :
    cls m = if m.toNat / 4096 = 0 then .pad else if m.toNat / 4096 = 8 then .mouse else .none := by
  unfold cls
  simp only [← BitVec.toNat_inj, idNibble_toNat]
  rfl

theorem cls_eq_pad_iff (m : Word) : cls m = .pad ↔ m.toNat / 4096 = 0 := by
  rw [cls_eq_ite]
  split_ifs with hpad hmouse <;> simp [hpad]

theorem cls_eq_mouse_iff (m : Word) : cls m = .mouse ↔ m.toNat / 4096 = 8 := by
  rw [cls_eq_ite]
  split_ifs with hpad hmouse
  · simp [hpad]
  · simp [hmouse]
  · simp [hmouse]

theorem cls_eq_none_iff (m : Word) :
    cls m = .none ↔ m.toNat / 4096 ≠ 0 ∧ m.toNat / 4096 ≠ 8 := by
  rw [cls_eq_ite]
  split_ifs with hpad hmouse
  · simp [hpad]
  · simp [hmouse]
  · simp [hpad, hmouse]

/-- The code of a class that is not Mouse. -/
theorem classCode_of_ne_mouse {m : Word} (h : cls m ≠ .mouse) :
    classCode (cls m) = if m.toNat / 4096 = 0 then 1 else 0 := by
  rw [ne_eq, cls_eq_mouse_iff] at h
  rw [cls_eq_ite, if_neg h]
  split_ifs <;> rfl

theorem cls_congr {m m' : Word} (h : idNibble m = idNibble m') : cls m = cls m' := by
  rw [cls, cls, h]

/-- The nibble is frame bits 12 to 15 (spec/42_pad_decoder.md R185), so the class of a frame depends on
those levels only. -/
theorem cls_maskOfLevels_congr {a a' : List Bool} (ha : a.length = 16) (ha' : a'.length = 16)
    (h : ∀ k, 12 ≤ k → k < 16 → a.getD k true = a'.getD k true) :
    cls (maskOfLevels a) = cls (maskOfLevels a') := by
  refine cls_congr (BitVec.eq_of_getLsbD_eq fun k hk => ?_)
  rw [idNibble, idNibble, BitVec.getLsbD_extractLsb', BitVec.getLsbD_extractLsb',
    maskOfLevels_getLsbD_frame ha (by omega), maskOfLevels_getLsbD_frame ha' (by omega),
    h (12 + k) (by omega) (by omega)]

/-! ### CLASSIFY's first frame (R215, R216) -/

theorem framePads_pad (s : State) (q : Port) : (framePads s).pad q = (frame16 s).1.of q := by
  cases q <;> rfl

theorem flushBody_levels (s : State) (l : Line) : (flushBody s).levels l = s.levels l := by
  cases l <;> rfl

theorem since_flushBody {s u : State} {es : List Event} (h : Since s u es) :
    Since s (flushBody u) es := by
  obtain ⟨hlevels, hdraws, hevents⟩ := h
  exact ⟨fun l => (flushBody_levels u l).trans (hlevels l), hdraws, hevents⟩

/-- The state in which a CLASSIFY issued in `s` begins frame A: flushed, and its transaction open. -/
def atFrameA (s : State) : State := flushBody (openTransaction s)

theorem since_atFrameA (s : State) : Since s (atFrameA s) [] :=
  since_flushBody (since_openTransaction s)

/-- The masks of frame A. -/
def frameA (s : State) : Masks := (frame16 (atFrameA s)).1

theorem frameRead_frameA (s : State) : frameRead (frameA s) s frameTrace 0 := by
  simpa [frameA] using frameRead_frame16 (since_atFrameA s) []

/-- Frame A's mask is that of the levels ready on the line. -/
theorem frameA_of_ready {s : State} {levels rest : List Bool} (q : Port)
    (hlen : levels.length = 16) (h : s.levels (dataLine q) = levels ++ rest) :
    (frameA s).of q = maskOfLevels levels := by
  refine readFrame_of_ready (rest := rest) q (by omega) hlen ?_
  rw [atFrameA, flushBody_levels, openTransaction_levels, h]

/-- After INIT, CLASSIFY runs. -/
theorem exec_classify_ready (p : Port) {s : State} (hinit : s.csr.initd = true) :
    exec (.classify p) s = .next (succeed (classifyBody p (openTransaction s))) :=
  exec_of_check_none (i := .classify p) (checkInit_ready s hinit)

theorem classifyBody_openTransaction (p : Port) (s : State) :
    classifyBody p (openTransaction s) =
      setRes (classCode (cls ((frameA s).of p)))
        (if cls ((frameA s).of p) = .mouse then probeMouse p (framePads (atFrameA s))
         else framePads (atFrameA s)) := by
  rw [frameA, ← framePads_pad]
  rfl

/-- CLASSIFY returns the class of frame A, whatever it reads after it (R216). -/
theorem classify_res {p : Port} {s t : State} (hinit : s.csr.initd = true)
    (h : exec (.classify p) s = .next t) : t.res = classCode (cls ((frameA s).of p)) := by
  cases h.symm.trans (exec_classify_ready p hinit)
  rw [classifyBody_openTransaction]
  rfl

/-! ### CLASSIFY without a mouse (R215) -/

/-- The state after a CLASSIFY that ran in `s`, read the masks `a` as frame A and found no mouse. -/
def afterClassFrame (p : Port) (a : Masks) (s : State) : State :=
  { s with pad1 := a.m1, pad2 := a.m2, mouse1 := mouseZero, mouse2 := mouseZero, brand := 0,
           res := if (a.of p).toNat / 4096 = 0 then 1 else 0,
           pout := 0x08, fpos := 0x8F, csr := { s.csr with brandv := false, err := 0 },
           trace := frameTrace, past := s.past ++ s.trace,
           levels0 := s.levels0.drop 16, levels1 := s.levels1.drop 16, draws := s.draws + 32 }

theorem afterClassFrame_pad (p q : Port) (a : Masks) (s : State) :
    (afterClassFrame p a s).pad q = a.of q := by
  cases q <;> rfl

theorem classify_runs_of_ne_mouse {p : Port} {s : State} (hinit : s.csr.initd = true)
    (h : cls ((frameA s).of p) ≠ .mouse) :
    exec (.classify p) s = .next (afterClassFrame p (frameA s) s) := by
  rw [exec_classify_ready p hinit, classifyBody_openTransaction, if_neg h, classCode_of_ne_mouse h,
    framePads_eq, frame16Events_eq_frameTrace]
  rfl

/-! ### The mouse probe (R215, R217, R218) -/

/-- The state after a mouse-frame read in `s` that read the masks `m` and the raw bytes `ry` and `rx`. -/
def afterMouseFrame (p : Port) (m : Masks) (ry rx : Byte) (s : State) : State :=
  { s with
    pad1 := m.m1, pad2 := m.m2,
    mouse1 := if p = .p1 then mouseFrom ry rx m.m1 else s.mouse1,
    mouse2 := if p = .p2 then mouseFrom ry rx m.m2 else s.mouse2,
    res := (statusPattern (deltaPattern ry) (deltaPattern rx)).setWidth 16,
    pout := 0x08, fpos := 0x9F,
    levels0 := s.levels0.drop (if p = .p1 then 32 else 16),
    levels1 := s.levels1.drop (if p = .p2 then 32 else 16), draws := s.draws + 48,
    trace := s.trace ++ (frameTrace ++ mouseTrace (dataLine p)) }

theorem mouseFrame_eq (p : Port) (s : State) :
    mouseFrame p s =
      (yByte p (framePads s), afterMouseFrame p (frame16 s).1 (yByte p (framePads s))
        (xByte p (framePads s)) s) := by
  have hcount : fposAfter 16 (framePads s).fpos = 0x9F := by
    rw [framePads_eq]
    exact fposAfter_mouse
  rw [mouseFrame, rdmouseBody_eq, hcount, mouseEvents_eq_mouseTrace]
  generalize yByte p (framePads s) = ry
  generalize xByte p (framePads s) = rx
  rw [framePads_eq, frame16Events_eq_frameTrace]
  cases p <;> simp [afterMouseFrame, decodeMouse_eq_mouseFrom, mouseFrom]

/-- Of two mouse-frame reads the second overwrites every register of the first (frame B is discarded). -/
theorem afterMouseFrame_twice (p : Port) (m m' : Masks) (ry rx ry' rx' : Byte) (s : State) :
    afterMouseFrame p m ry rx (afterMouseFrame p m' ry' rx' s) =
      { afterMouseFrame p m ry rx s with
        levels0 := s.levels0.drop (if p = .p1 then 64 else 32),
        levels1 := s.levels1.drop (if p = .p2 then 64 else 32), draws := s.draws + 96,
        trace := s.trace ++ (frameTrace ++ mouseTrace (dataLine p))
          ++ (frameTrace ++ mouseTrace (dataLine p)) } := by
  cases p <;> simp [afterMouseFrame]

/-- The state in which a CLASSIFY of port `p` issued in `s` that finds a mouse begins frame C. -/
def atFrameC (p : Port) (s : State) : State := (mouseFrame p (framePads (atFrameA s))).2

theorem since_framePads_frameTrace {s u : State} {es : List Event} (h : Since s u es) :
    Since s (framePads u) (es ++ frameTrace) :=
  frame16Events_eq_frameTrace ▸ since_framePads h

theorem since_atFrameC (p : Port) (s : State) :
    Since s (atFrameC p s) (frameTrace ++ frameTrace ++ mouseTrace (dataLine p)) :=
  mouseEvents_eq_mouseTrace p ▸ since_rdmouseBody
    (since_framePads_frameTrace (since_framePads_frameTrace (since_atFrameA s))) p

theorem frameTrace_length : frameTrace.length = 64 := by decide

theorem mouseTrace_length (l : Line) : (mouseTrace l).length = 64 := by
  rw [mouseTrace_eq_read8Events, List.length_append, read8Events_length]

/-- Frame C begins at event 192. -/
theorem frameRead_frameC (p : Port) (s : State) :
    frameRead (frame16 (atFrameC p s)).1 s (mouseProbeTrace (dataLine p)) 192 := by
  simpa [mouseProbeTrace, frameTrace_length, mouseTrace_length] using
    frameRead_frame16 (since_atFrameC p s) (mouseTrace (dataLine p))

/-- The two bytes after frame C begin at events 256 and 288. -/
theorem byteRead_bytesC (p : Port) (s : State) :
    byteRead (yByte p (framePads (atFrameC p s))) s (mouseProbeTrace (dataLine p)) 256 (dataLine p) ∧
    byteRead (xByte p (framePads (atFrameC p s))) s (mouseProbeTrace (dataLine p)) 288
      (dataLine p) := by
  simpa [mouseProbeTrace, frameTrace_length, mouseTrace_length] using
    byteRead_mouseBytes (since_framePads_frameTrace (since_atFrameC p s)) [] p

/-- The state after a CLASSIFY that ran in `s` and found a mouse, frame C being the masks `c` and the raw
bytes `ry` and `rx`. -/
def afterMouseProbe (p : Port) (c : Masks) (ry rx : Byte) (s : State) : State :=
  { s with
    pad1 := c.m1, pad2 := c.m2,
    mouse1 := if p = .p1 then mouseFrom ry rx c.m1 else mouseZero,
    mouse2 := if p = .p2 then mouseFrom ry rx c.m2 else mouseZero,
    brand := ry, res := 2, pout := 0x08, fpos := 0x9F,
    csr := { s.csr with brandv := true, err := 0 },
    trace := mouseProbeTrace (dataLine p), past := s.past ++ s.trace,
    levels0 := s.levels0.drop (if p = .p1 then 80 else 48),
    levels1 := s.levels1.drop (if p = .p2 then 80 else 48), draws := s.draws + 128 }

/-- The probe after frame A: two mouse-frame reads, of which the second stays, and the brand. -/
theorem probeMouse_framePads_atFrameA (p : Port) (s : State) :
    succeed (setRes 2 (probeMouse p (framePads (atFrameA s)))) =
      afterMouseProbe p (frame16 (atFrameC p s)).1 (yByte p (framePads (atFrameC p s)))
        (xByte p (framePads (atFrameC p s))) s := by
  have hprobe : probeMouse p (framePads (atFrameA s)) =
      { (mouseFrame p (atFrameC p s)).2 with
        brand := (mouseFrame p (atFrameC p s)).1,
        csr := { (mouseFrame p (atFrameC p s)).2.csr with brandv := true } } := rfl
  rw [hprobe, mouseFrame_eq p (atFrameC p s)]
  generalize (frame16 (atFrameC p s)).1 = c
  generalize yByte p (framePads (atFrameC p s)) = ry
  generalize xByte p (framePads (atFrameC p s)) = rx
  rw [atFrameC, mouseFrame_eq, afterMouseFrame_twice, framePads_eq, frame16Events_eq_frameTrace]
  cases p <;>
    simp [afterMouseProbe, afterMouseFrame, succeed, setRes, atFrameA, mouseProbeTrace,
      MouseState.zero, mouseZero]

theorem classify_runs_of_mouse {p : Port} {s : State} (hinit : s.csr.initd = true)
    (h : cls ((frameA s).of p) = .mouse) :
    exec (.classify p) s = .next
      (afterMouseProbe p (frame16 (atFrameC p s)).1 (yByte p (framePads (atFrameC p s)))
        (xByte p (framePads (atFrameC p s))) s) := by
  rw [exec_classify_ready p hinit, classifyBody_openTransaction, if_pos h, h,
    ← probeMouse_framePads_atFrameA]
  rfl

/-! ### A held line (R213) -/

/-- With frame A's levels ready and their class not Mouse, CLASSIFY leaves their mask and its class. -/
theorem classify_of_ready {p : Port} {s t : State} {levels rest : List Bool}
    (hinit : s.csr.initd = true) (hlen : levels.length = 16)
    (hready : s.levels (dataLine p) = levels ++ rest) (hcls : cls (maskOfLevels levels) ≠ .mouse)
    (h : exec (.classify p) s = .next t) :
    t.pad p = maskOfLevels levels ∧ t.res = classCode (cls (maskOfLevels levels)) := by
  have hmask : (frameA s).of p = maskOfLevels levels := frameA_of_ready p hlen hready
  refine ⟨?_, hmask ▸ classify_res hinit h⟩
  cases h.symm.trans (classify_runs_of_ne_mouse hinit (hmask ▸ hcls))
  rw [afterClassFrame_pad, hmask]

/-! ### The events of a command (R220) -/

/-- Every command but CLASSIFY adds the same events in every state. -/
theorem exists_commandBody_trace {i : Instr} (hi : ¬ ∃ p, i = .classify p) :
    ∃ es, ∀ s, (commandBody i s).trace = s.trace ++ es := by
  cases i with
  | classify p => exact absurd ⟨p, rfl⟩ hi
  | init => exact ⟨[.w 0x08, .p 0xFC], fun s => by simp [commandBody, initBody]⟩
  | flush => exact ⟨[], fun s => by simp [commandBody]⟩
  | rdpad p => exact ⟨frameTrace, fun s => by rw [commandBody, rdpadBody_state]⟩
  | rdmouse p => exact ⟨mouseEvents (lineOfPort p), fun s => by simp [commandBody, rdmouseBody_eq]⟩
  | setsens p level => exact ⟨setsensEvents, fun s => by rw [commandBody, setsensBody_eq]⟩
  | platch => exact ⟨latchEvents, fun s => by rw [commandBody, latchPulse_eq]⟩
  | pclock => exact ⟨clockEvents, fun s => by rw [commandBody, clockPulse_eq]⟩
  | sample l => exact ⟨[.s l], fun s => by simp [commandBody, sampleBody]⟩
  | wait n => exact ⟨[.d (.wait n)], fun s => rfl⟩

end Sys2Proof.Machine
end

section
/-! PROOF. The settled obligations about the device identifier. -/

namespace Sys2Proof.Proofs

open Sys2Proof Sys2Proof.Machine Sys2Proof.Claims

/-- Settles O29: frame A's class picks the outcome; the masks and bytes each leaves are those of its own
frames, which `frameRead_frameA`, `frameRead_frameC` and `byteRead_bytesC` tie to the environment's
answers. -/
theorem classifyCommand : Obligations.ClassifyCommand := by
  unfold Obligations.ClassifyCommand
  refine ⟨fun c hop => ?_, fun p s => exec_of_not_initd rfl, fun p s hinit => ?_⟩
  · simp only [decode, opField_toNat, hop, decodeP_eq_formatP]
  · refine ⟨frameA s, frameRead_frameA s, ?_⟩
    by_cases hcls : cls ((frameA s).of p) = .mouse
    · obtain ⟨hy, hx⟩ := byteRead_bytesC p s
      exact .inr ⟨(cls_eq_mouse_iff _).mp hcls, _, _, _, frameRead_frameC p s, hy, hx,
        classify_runs_of_mouse hinit hcls⟩
    · exact .inl ⟨(cls_eq_mouse_iff _).not.mp hcls, classify_runs_of_ne_mouse hinit hcls⟩

/-- Settles O30: RES is the code of frame A's class, and the class is decided by the nibble
(`cls_maskOfLevels_congr`). -/
theorem classFromFirstFrameOnly : Obligations.ClassFromFirstFrameOnly := by
  unfold Obligations.ClassFromFirstFrameOnly
  intro p s s' t t' a a' r r' hinit hinit' ha ha' hready hready' hnibble h h'
  rw [classify_res hinit h, classify_res hinit' h', frameA_of_ready p ha hready,
    frameA_of_ready p ha' hready', cls_maskOfLevels_congr ha ha' hnibble]

/-- Settles O32: the mask of sixteen equal levels is all zeros or all ones, and neither is a mouse's. -/
theorem classOfHeldLine : Obligations.ClassOfHeldLine := by
  unfold Obligations.ClassOfHeldLine
  intro p s t r hinit h
  have hones : cls (maskOfLevels (List.replicate 16 true)) = .pad := by decide
  have hzeros : cls (maskOfLevels (List.replicate 16 false)) = .none := by decide
  refine ⟨fun hready => ?_, fun hready => ?_⟩
  · obtain ⟨hpad, hres⟩ := classify_of_ready hinit (by simp) hready (by rw [hones]; decide) h
    rw [hpad, hres, hones, maskOfLevels_replicate_true]
    exact ⟨rfl, rfl⟩
  · obtain ⟨hpad, hres⟩ := classify_of_ready hinit (by simp) hready (by rw [hzeros]; decide) h
    rw [hpad, hres, hzeros, maskOfLevels_replicate_false]
    exact ⟨rfl, rfl⟩

/-- Settles O39: a command that ends with ERR = 0 ran, from an empty trace, and added its own events. -/
theorem traceFixedByOperands : Obligations.TraceFixedByOperands := by
  unfold Obligations.TraceFixedByOperands
  intro i s s' t t' hi h h' herr herr'
  obtain ⟨es, hes⟩ := exists_commandBody_trace hi
  rw [ran_of_err_eq_zero h herr, ran_of_err_eq_zero h' herr', succeed_trace, succeed_trace, hes, hes,
    openTransaction_trace, openTransaction_trace]

/-- Settles O26: FLUSH has no check that depends on state. -/
theorem flushCommand : Obligations.FlushCommand := by
  unfold Obligations.FlushCommand
  refine ⟨fun c hop => ?_, fun s => exec_of_check_none (i := .flush) rfl⟩
  simp only [decode, opField_toNat, hop, decodeN_eq_formatN]

/-- Settles O27: the class by its nibble, and the nibble by the range of the whole mask. -/
theorem classOfMask : Obligations.ClassOfMask := by
  unfold Obligations.ClassOfMask
  intro m
  have hm := m.isLt
  rw [cls_eq_pad_iff, cls_eq_mouse_iff, cls_eq_none_iff]
  omega

/-- Settles O28, along the branches of `brandClass`. -/
theorem brandClassOfByte : Obligations.BrandClassOfByte := by
  unfold Obligations.BrandClassOfByte
  intro b
  unfold brandClass
  split_ifs with hA hB
  · simp [hA]
  · simp [hB]
  · exact ⟨iff_of_false nofun hA, iff_of_false nofun hB, iff_of_true rfl ⟨hA, hB⟩⟩

end Sys2Proof.Proofs
end

section
/-! PROOF. The sensitivity initializer: its trace as the spec lists it, and the state it leaves. -/

namespace Sys2Proof.Machine

open Claims

theorem copies_eq_repeated (n : Nat) (es : List Event) : copies n es = repeated n es := by
  induction n with
  | zero => rfl
  | succ n ih => rw [copies_succ, ih, repeated]

/-- The pulses the model makes are the events R231 lists. -/
theorem setsensEvents_eq_sensTrace : setsensEvents = sensTrace := by
  rw [setsensEvents, copies_eq_repeated, copies_eq_repeated]
  rfl

/-- The state after a SETSENS that ran in `s`. -/
def afterSetsens (s : State) : State :=
  { s with res := Config.sensStatus.setWidth 16, pout := 0x08, fpos := 0x00,
           csr := { s.csr with err := 0 }, trace := sensTrace, past := s.past ++ s.trace }

/-- After INIT, SETSENS runs and leaves the same state for every port and level (R232, R233). -/
theorem setsens_runs (p : Port) (level : Byte) {s : State} (hinit : s.csr.initd = true) :
    exec (.setsens p level) s = .next (afterSetsens s) := by
  have hrun : exec (.setsens p level) s = .next (succeed (setsensBody (openTransaction s))) :=
    exec_of_check_none (i := .setsens p level) (checkInit_ready s hinit)
  rw [hrun, setsensBody_eq, setsensEvents_eq_sensTrace]
  rfl

end Sys2Proof.Machine
end

section
/-! PROOF. The settled obligation about the sensitivity initializer. -/

namespace Sys2Proof.Proofs

open Sys2Proof Sys2Proof.Machine Sys2Proof.Claims

/-- Settles O33: after INIT the body runs, and it reads neither operand (`setsens_runs`). -/
theorem setsensCommand : Obligations.SetsensCommand := by
  unfold Obligations.SetsensCommand
  refine ⟨fun c hop => ?_, fun p v s => exec_of_not_initd rfl, fun p v s => setsens_runs p v⟩
  simp only [decode, opField_toNat, hop, decodePL_eq_fields]

end Sys2Proof.Proofs
end

section
/-! PROOF. Validation: the code of a command's check, the code of an issued word from its bits, and the
answer that every input gets. -/

namespace Sys2Proof.Machine

open Claims

/-! ### The code of a check (spec/60_exceptions.md R241, R242) -/

/-- What a check's verdict leaves in CSR.ERR: 0 if it passes. -/
def verdictCode : Option CmdError → BitVec 3
  | none => 0
  | some e => errorCode e

theorem verdictCode_checkInit (s : State) :
    verdictCode (checkInit s) = if s.csr.initd = false then 4 else 0 := by
  cases hinit : s.csr.initd with
  | false => rw [checkInit_notinit s hinit]; rfl
  | true => rw [checkInit_ready s hinit]; rfl

theorem verdictCode_checkSeq (s : State) :
    verdictCode (checkSeq s) =
      if s.csr.initd = false then 4 else if s.fpos ≠ 0x8F then 5 else 0 := by
  cases hinit : s.csr.initd with
  | false => rw [checkSeq_notinit s hinit]; rfl
  | true =>
    by_cases hfpos : s.fpos = 0x8F
    · rw [checkSeq_ready s hinit hfpos, hfpos]; rfl
    · rw [checkSeq_seq s hinit hfpos, if_neg Bool.noConfusion, if_pos hfpos]; rfl

/-- The rules' outcome code is the verdict of the command's own check. -/
theorem outcomeCode_eq_verdictCode (i : Instr) (s : State) :
    outcomeCode i s = verdictCode (commandCheck i s) := by
  cases i with
  | init | flush | sample l | wait n => rfl
  | rdmouse p => simp [outcomeCode, drivesLines, isRdmouse, commandCheck, verdictCode_checkSeq]
  | rdpad p | classify p | setsens p level | platch | pclock =>
    simp [outcomeCode, drivesLines, isRdmouse, commandCheck, verdictCode_checkInit]

/-! ### The two outcomes (R243, R244) -/

/-- `t` is how a transaction from `s` with this outcome code may end. -/
def Validated (code : BitVec 3) (s t : State) : Prop :=
  t.csr.err = code ∧ (code = 0 → t.csr.errs = s.csr.errs) ∧ (code ≠ 0 → t = refused code s)

theorem validated_refuseCommand (e : CmdError) (s : State) :
    Validated (errorCode e) s (refuseCommand e s) :=
  ⟨rfl, fun h => absurd h (errorCode_ne_zero e), fun _ => refuseCommand_eq_refused e s⟩

theorem validated_succeed {s t : State} (h : t.csr.errs = s.csr.errs) : Validated 0 s (succeed t) :=
  ⟨rfl, fun _ => h, fun h0 => absurd rfl h0⟩

/-- No body writes the sticky error bit. -/
theorem commandBody_errs (i : Instr) (s : State) : (commandBody i s).csr.errs = s.csr.errs := by
  by_cases hi : i = .init
  · subst hi; rfl
  · exact (commandBody_sameSetup hi s).errs

/-- Every command answers, keeps CMD, and ends as its outcome code says. -/
theorem exec_validated (i : Instr) (s : State) :
    ∃ t, exec i s = .next t ∧ t.cmd = s.cmd ∧ Validated (outcomeCode i s) s t := by
  rw [outcomeCode_eq_verdictCode]
  cases hcheck : commandCheck i s with
  | none =>
    exact ⟨_, exec_of_check_none hcheck, commandBody_cmd i (openTransaction s),
      validated_succeed (commandBody_errs i (openTransaction s))⟩
  | some e => exact ⟨_, exec_of_check_some hcheck, rfl, validated_refuseCommand e s⟩

/-! ### The code of a word (R242) -/

/-- A word the decoder refuses gets its error's code, whatever the state. -/
theorem validate_of_decode_error {c : Word} {e : CmdError} (h : decode c = .error e) (s : State) :
    validate c s = errorCode e := by
  obtain ⟨rfl, hop⟩ | ⟨rfl, hres⟩ | ⟨rfl, hsel⟩ := (decode_eq_error_iff c e).mp h
  · exact if_pos hop
  · obtain hbits | hbits | hbits | hbits := hres
    · rw [validate, if_neg (by omega), if_pos hbits]; rfl
    · rw [validate, if_neg (by omega), if_neg (by omega), if_pos hbits]; rfl
    · rw [validate, if_neg (by omega), if_neg (by omega), if_neg (by omega), if_pos hbits]; rfl
    · rw [validate, if_neg (by omega), if_neg (by omega), if_neg (by omega), if_neg (by omega),
        if_pos hbits]; rfl
  · unfold SelNamesNothing at hsel
    rw [validate, if_neg (by omega), if_neg (by omega), if_neg (by omega), if_neg (by omega),
      if_neg (by omega), if_pos (by omega)]; rfl

/-- Past the decoder's checks only INITD and FPOS decide. -/
theorem validate_of_decode_ok {c : Word} {i : Instr} (h : decode c = .ok i) (s : State) :
    validate c s =
      if (op c = 3 ∨ op c = 4 ∨ op c = 5 ∨ op c = 6 ∨ op c = 7 ∨ op c = 8) ∧ s.csr.initd = false
      then 4
      else if op c = 4 ∧ s.fpos ≠ 0x8F then 5 else 0 := by
  have hillop : ¬ (op c = 0 ∨ 0xB ≤ op c) := fun hop =>
    nomatch h.symm.trans ((decode_eq_error_iff c .illop).mpr (.inl ⟨rfl, hop⟩))
  have hrsvd : ¬ ReservedBitSet c := fun hres =>
    nomatch h.symm.trans ((decode_eq_error_iff c .rsvd).mpr (.inr (.inl ⟨rfl, hres⟩)))
  have hbadsel : ¬ SelNamesNothing c := fun hsel =>
    nomatch h.symm.trans ((decode_eq_error_iff c .badsel).mpr (.inr (.inr ⟨rfl, hsel⟩)))
  unfold ReservedBitSet at hrsvd
  unfold SelNamesNothing at hbadsel
  rw [validate, if_neg hillop, if_neg (by omega), if_neg (by omega), if_neg (by omega),
    if_neg (by omega), if_neg (by omega)]

theorem op_wordOf (o : BitVec 4) (s : BitVec 2) (m : Byte) : op (wordOf o s m) = o.toNat := by
  obtain ⟨hop, -⟩ := fields_wordOf o s m
  rw [← opField_toNat, hop]

/-- The opcodes of the commands that drive the latch or clock line (R241). -/
theorem op_encode_drives_iff (i : Instr) :
    (op (encode i) = 3 ∨ op (encode i) = 4 ∨ op (encode i) = 5 ∨ op (encode i) = 6 ∨
      op (encode i) = 7 ∨ op (encode i) = 8) ↔ drivesLines i = true := by
  cases i <;> simp [encode, op_wordOf, drivesLines]

theorem op_encode_eq_four_iff (i : Instr) : op (encode i) = 4 ↔ isRdmouse i = true := by
  cases i <;> simp [encode, op_wordOf, isRdmouse]

/-- The word of a command gets the command's own outcome code. -/
theorem validate_eq_outcomeCode {c : Word} {i : Instr} (h : decode c = .ok i) (s : State) :
    validate c s = outcomeCode i s := by
  rw [validate_of_decode_ok h, ← encode_of_decode_ok h]
  -- before `op_encode_eq_four_iff`, which would rewrite inside its left side
  simp only [op_encode_drives_iff]
  simp only [op_encode_eq_four_iff, outcomeCode]

/-! ### Every input is answered (R240, R246, R247) -/

/-- Every issued word answers, stays in CMD, and ends as its code says. -/
theorem issue_validated (s : State) :
    ∃ t, issue s = .next t ∧ t.cmd = s.cmd ∧ Validated (validate s.cmd s) s t := by
  obtain ⟨i, hdecode, hissue⟩ | ⟨e, hdecode, hissue⟩ := issue_cases s
  · rw [hissue, validate_eq_outcomeCode hdecode]
    exact exec_validated i s
  · rw [hissue, validate_of_decode_error hdecode]
    exact ⟨_, rfl, rfl, validated_refuseCommand e s⟩

theorem hostWrite_answers (off : Offset) (v : Byte) (s : State) :
    ∃ t, hostWrite off v s = .next t := by
  obtain ⟨-, hw⟩ | ⟨-, hw⟩ | ⟨-, -, hw⟩ := hostWrite_cases off v s
  · exact ⟨_, hw⟩
  · obtain ⟨t, ht, -⟩ := issue_validated { s with cmd := joinBytes v (lowByte s.cmd) }
    exact ⟨t, hw.trans ht⟩
  · exact ⟨_, hw⟩

/-- A CMDH write that answers can be cut by a reset after any number of its events (R253). -/
theorem hostWriteThenReset_of_hostWrite {v : Byte} {s t : State} (h : hostWrite 0x01 v s = .next t)
    (n : Nat) : hostWriteThenReset v n s = .next (resetDuring n s t) := by
  simp only [hostWriteThenReset, h]

theorem takeInput_answers (i : Input) (s : State) : ∃ t, takeInput i s = .next t := by
  cases i with
  | read off => exact ⟨hostRead off s, rfl⟩
  | write off v => exact hostWrite_answers off v s
  | reset => exact ⟨resetBlock s, rfl⟩
  | issueThenReset v n =>
    obtain ⟨t, ht⟩ := hostWrite_answers 0x01 v s
    exact ⟨_, hostWriteThenReset_of_hostWrite ht n⟩

theorem step_idle {s : State} (h : s.inbox = []) : step s = .next s := by
  simp only [step, nextInput, h]

end Sys2Proof.Machine
end

section
/-! PROOF. The settled obligations about validation, errors and cut commands. -/

namespace Sys2Proof.Proofs

open Sys2Proof Sys2Proof.Machine Sys2Proof.Claims

/-- Settles O34: the outcome code is the check's verdict, and the check decides between the body and the
refusal. -/
theorem validationExact : Obligations.ValidationExact := by
  unfold Obligations.ValidationExact
  intro i s
  obtain ⟨t, ht, -, hvalid⟩ := exec_validated i s
  exact ⟨t, ht, hvalid⟩

/-- Settles O35: the step issues the word `{v, CMDL}`; the decoder gives its first three codes
(`validate_of_decode_error`) and the decoded command's check the others (`validate_eq_outcomeCode`). -/
theorem issuedWordValidated : Obligations.IssuedWordValidated := by
  unfold Obligations.IssuedWordValidated
  intro s v rest h
  obtain ⟨t, ht, hcmd, hvalid⟩ :=
    issue_validated { s with inbox := rest, cmd := joinBytes v (lowByte s.cmd) }
  have hstep : step s = .next t := by rw [step_write h, hostWrite_cmdh, ht]
  exact ⟨joinBytes v (lowByte s.cmd), t, lowByte_joinBytes _ _, highByte_joinBytes _ _, hstep, hcmd,
    hvalid⟩

/-- Settles O42: the idle step keeps the state, and every input is answered. -/
theorem everyStepAnswers : Obligations.EveryStepAnswers := by
  unfold Obligations.EveryStepAnswers
  intro s
  cases hin : s.inbox with
  | nil => exact ⟨s, step_idle hin⟩
  | cons i rest =>
    rw [step_of_inbox s i rest hin]
    exact takeInput_answers i _

/-- Settles O55: the uncut write answers a state `t`, and the cut one answers `t`'s transaction reset
after `n` events. -/
theorem resetCutsCommand : Obligations.ResetCutsCommand := by
  unfold Obligations.ResetCutsCommand
  intro s v n rest h
  obtain ⟨t, ht⟩ := hostWrite_answers 0x01 v { s with inbox := rest }
  have huncut : step { s with inbox := .write 0x01 v :: rest } = .next t := (step_write rfl).trans ht
  have hcut : step s = .next (resetDuring n { s with inbox := rest } t) :=
    (step_of_inbox s _ rest h).trans (hostWriteThenReset_of_hostWrite ht n)
  have hcsr : (resetDuring n { s with inbox := rest } t).csr.toByte = 0 :=
    (by decide : Csr.zero.toByte = 0)
  exact ⟨t, _, huncut, hcut, rfl, rfl, rfl, rfl, rfl, rfl, rfl, rfl, rfl, hcsr, rfl, rfl, rfl, rfl⟩

/-- Settles O48. -/
theorem errorCodes : Obligations.ErrorCodes := ⟨rfl, rfl, rfl, rfl, rfl⟩

/-- Settles O51: with an empty inbox `nextInput` takes its idle branch. -/
theorem idleKeepsState : Obligations.IdleKeepsState := fun _ h => step_idle h

end Sys2Proof.Proofs
end

section
/-! PROOF. What RDMOUSE finds after each command, the events of each command with their counts and
durations, and the bits of CSR that no transaction clears. -/

namespace Sys2Proof.Machine

open Claims

/-! ### RDMOUSE after another command (spec/43_mouse_decoder.md R197; spec/70_reset_and_hazards.md R275) -/

/-- In sequence RDMOUSE ends with ERR = 0. -/
theorem rdmouse_in_sequence (p : Port) {s : State} (hinit : s.csr.initd = true)
    (hfpos : s.fpos = 0x8F) : ∃ u, exec (.rdmouse p) s = .next u ∧ u.csr.err = 0 :=
  ⟨_, rdmouse_runs p hinit hfpos, rfl⟩

/-- A line-driving command that ends with ERR = 0 was issued after INIT. -/
theorem initd_of_err_eq_zero {i : Instr} {s t : State} (hi : drivesLines i = true)
    (h : exec i s = .next t) (herr : t.csr.err = 0) : s.csr.initd = true := by
  obtain ⟨e, -, rfl⟩ | ⟨hcheck, -⟩ := exec_cases h
  · exact absurd herr (errorCode_ne_zero e)
  · exact initd_of_commandCheck hcheck hi

/-- With INIT done and FPOS = 0x8F every command passes its check. -/
theorem commandCheck_in_sequence (i : Instr) {s : State} (hinit : s.csr.initd = true)
    (hfpos : s.fpos = 0x8F) : commandCheck i s = none := by
  cases i with
  | init | flush | sample l | wait n => rfl
  | rdmouse p => exact checkSeq_ready s hinit hfpos
  | rdpad p | classify p | setsens p level | platch | pclock => exact checkInit_ready s hinit

/-- No body clears INITD. -/
theorem commandBody_initd (i : Instr) {s : State} (hinit : s.csr.initd = true) :
    (commandBody i s).csr.initd = true := by
  by_cases hi : i = .init
  · subst hi; rfl
  · exact (commandBody_sameSetup hi s).initd.trans hinit

/-- The commands that move FPOS off 0x8F: INIT and SETSENS forget the position, PLATCH starts it again,
PCLOCK and RDMOUSE count on (R49). -/
theorem commandBody_leaves_sequence {i : Instr} {s : State} (hfpos : s.fpos = 0x8F)
    (hi : i = .init ∨ i = .platch ∨ i = .pclock ∨ (∃ q v, i = .setsens q v) ∨ ∃ q, i = .rdmouse q) :
    (commandBody i s).fpos ≠ 0x8F := by
  obtain rfl | rfl | rfl | ⟨q, v, rfl⟩ | ⟨q, rfl⟩ := hi
  · exact (by decide : fposUnknown ≠ 0x8F)
  · exact (by decide : fposLatched ≠ 0x8F)
  · rw [commandBody, clockPulse_eq, hfpos]
    exact (by decide : fposClocked 0x8F ≠ 0x8F)
  · rw [commandBody, setsensBody_eq]
    exact (by decide : (0x00 : Byte) ≠ 0x8F)
  · simp only [commandBody, rdmouseBody_eq, hfpos]
    exact fposAfter_mouse.trans_ne (by decide)

/-- The commands that leave FPOS = 0x8F: those that do not write FPOS, and RDPAD, which sets it. -/
theorem commandBody_keeps_sequence {i : Instr} {s : State} (hfpos : s.fpos = 0x8F)
    (hi : i = .flush ∨ (∃ l, i = .sample l) ∨ (∃ n, i = .wait n) ∨ ∃ q, i = .rdpad q) :
    (commandBody i s).fpos = 0x8F := by
  obtain hquiet | ⟨q, rfl⟩ : ¬ writesLines i ∨ ∃ q, i = .rdpad q := by
    obtain rfl | ⟨l, rfl⟩ | ⟨n, rfl⟩ | hq := hi
    · exact .inl (by simp [writesLines])
    · exact .inl (by simp [writesLines])
    · exact .inl (by simp [writesLines])
    · exact .inr hq
  · obtain ⟨-, hkept⟩ := commandBody_lines hquiet s
    exact hkept.trans hfpos
  · rw [commandBody, rdpadBody_state]
    rfl

theorem classCode_eq_two_iff (c : DeviceClass) : classCode c = 2 ↔ c = .mouse := by
  cases c <;> decide

/-- What a CLASSIFY that ran leaves of RES, FPOS and the trace: the probe's or the first frame's (R215). -/
theorem classify_outcome {p : Port} {s t : State} (hinit : s.csr.initd = true)
    (h : exec (.classify p) s = .next t) :
    (t.res = 2 ∧ t.fpos = 0x9F ∧ t.trace = mouseProbeTrace (dataLine p)) ∨
    (t.res ≠ 2 ∧ t.fpos = 0x8F ∧ t.trace = frameTrace) := by
  by_cases hcls : cls ((frameA s).of p) = .mouse
  · cases h.symm.trans (classify_runs_of_mouse hinit hcls)
    exact .inl ⟨rfl, rfl, rfl⟩
  · have hres : t.res ≠ 2 := by rwa [classify_res hinit h, ne_eq, classCode_eq_two_iff]
    cases h.symm.trans (classify_runs_of_ne_mouse hinit hcls)
    exact .inr ⟨hres, rfl, rfl⟩

/-- RDMOUSE of either port after a CLASSIFY that ran: the probe's own RDMOUSE bodies moved FPOS on, the
first frame alone leaves it in sequence. -/
theorem rdmouse_after_classify {p : Port} {s t : State} (q : Port) (hinit : s.csr.initd = true)
    (h : exec (.classify p) s = .next t) :
    (t.res = 2 → exec (.rdmouse q) t = .next (refused 5 t)) ∧
    (t.res ≠ 2 → ∃ u, exec (.rdmouse q) t = .next u ∧ u.csr.err = 0) := by
  have hinit' : t.csr.initd = true := by
    cases h.symm.trans (exec_classify_ready p hinit)
    exact commandBody_initd (.classify p) (s := openTransaction s) hinit
  obtain ⟨hres, hfpos, -⟩ | ⟨hres, hfpos, -⟩ := classify_outcome hinit h
  · exact ⟨fun _ => rdmouse_refused_seq q hinit' (by rw [hfpos]; decide), fun hne => absurd hres hne⟩
  · exact ⟨fun heq => absurd heq hres, fun _ => rdmouse_in_sequence q hinit' hfpos⟩

/-! ### The events of a command (R286) -/

/-- The trace of each command that runs, `found` telling whether CLASSIFY found a mouse. -/
def commandTrace (i : Instr) (found : Bool) : List Event :=
  match i with
  | .init => [.w 0x08, .p 0xFC]
  | .flush => []
  | .rdpad _ => frameTrace
  | .rdmouse p => mouseTrace (dataLine p)
  | .classify p => if found then mouseProbeTrace (dataLine p) else frameTrace
  | .setsens _ _ => sensTrace
  | .platch => [.w 0x0C, .w 0x08]
  | .pclock => [.w 0x00, .w 0x08]
  | .sample l => [.s l]
  | .wait n => [.d (.wait n)]

theorem exec_trace {i : Instr} {s t : State} (h : exec i s = .next t) (herr : t.csr.err = 0) :
    t.trace = commandTrace i (decide (t.res = 2)) := by
  have hran := ran_of_err_eq_zero h herr
  cases i with
  | init | flush | platch | pclock | wait n => rw [hran]; rfl
  | rdpad p => rw [hran, commandBody, rdpadBody_state]; rfl
  | rdmouse p => obtain ⟨-, -, rfl⟩ := rdmouse_ran h herr; rfl
  | setsens p level => rw [hran, commandBody, setsensBody_eq, setsensEvents_eq_sensTrace]; rfl
  | sample l => rw [hran]; simp [commandBody, sampleBody, commandTrace]
  | classify p =>
    obtain ⟨hres, -, htrace⟩ | ⟨hres, -, htrace⟩ :=
      classify_outcome (initd_of_err_eq_zero rfl h herr) h
    · rw [htrace, decide_eq_true hres]; rfl
    · rw [htrace, decide_eq_false hres]; rfl

/-- A refused command's trace is empty. -/
theorem exec_trace_of_refused {i : Instr} {s t : State} (h : exec i s = .next t)
    (herr : t.csr.err ≠ 0) : t.trace = [] := by
  obtain ⟨e, -, rfl⟩ | ⟨-, rfl⟩ := exec_cases h
  · rfl
  · exact absurd rfl herr

/-! ### What a trace holds -/

/-- The counts of two stretches of events together. -/
def addCounts (a b : Counts) : Counts :=
  { latch := a.latch + b.latch, clock := a.clock + b.clock,
    samples0 := a.samples0 + b.samples0, samples1 := a.samples1 + b.samples1,
    settles := a.settles + b.settles, longs := a.longs + b.longs, gaps := a.gaps + b.gaps,
    waits := a.waits + b.waits, events := a.events + b.events }

theorem counts_append (n : Byte) (a b : List Event) :
    counts n (a ++ b) = addCounts (counts n a) (counts n b) := by
  simp [counts, addCounts, latchPulses, clockPulses]

theorem counts_frameTrace (n : Byte) : counts n frameTrace = ⟨1, 15, 16, 16, 0, 0, 0, 0, 64⟩ := rfl

/-- An RDMOUSE samples its own line only. -/
theorem counts_mouseTrace (l : Line) (n : Byte) : counts n (mouseTrace l) =
    ⟨0, 16, if l = .l0 then 16 else 0, if l = .l1 then 16 else 0, 16, 0, 0, 0, 64⟩ := by
  cases l <;> rfl

theorem counts_sensTrace (n : Byte) : counts n sensTrace = ⟨32, 15, 0, 0, 15, 1, 31, 0, 141⟩ := by
  simp only [sensTrace, counts_append]
  rfl

/-- Three frames and two mouse reads (R215). -/
theorem counts_mouseProbeTrace (l : Line) (n : Byte) : counts n (mouseProbeTrace l) =
    ⟨3, 77, if l = .l0 then 80 else 48, if l = .l1 then 80 else 48, 32, 0, 0, 0, 320⟩ := by
  simp only [mouseProbeTrace, counts_append, counts_frameTrace, counts_mouseTrace]
  cases l <;> rfl

theorem counts_commandTrace (i : Instr) (found : Bool) (n : Byte) :
    counts n (commandTrace i found) = countsOf i found n := by
  cases i with
  | init | flush | platch | pclock => rfl
  | rdpad p => exact counts_frameTrace n
  | rdmouse p => rw [commandTrace, counts_mouseTrace]; cases p <;> rfl
  | setsens p level => exact counts_sensTrace n
  | sample l => cases l <;> rfl
  | wait m =>
    simp [commandTrace, counts, countsOf, latchPulses, clockPulses, List.count_singleton]
  | classify p =>
    cases found with
    | true => rw [commandTrace, if_pos rfl, counts_mouseProbeTrace]; cases p <;> rfl
    | false => rw [commandTrace, if_neg Bool.noConfusion, counts_frameTrace]; cases p <;> rfl

/-! ### How long a trace lasts at least (R288) -/

section Durations

variable (T : Timing)

/-- What one event adds to the bound: T_PULSE at the write that begins a pulse, a delay's parameter. -/
def eventDuration : Event → NNRat
  | .w v => if v = 0x0C ∨ v = 0x00 then T.tPulse else 0
  | .p _ => 0
  | .s _ => 0
  | .d k => k.duration T

theorem minDuration_nil : minDuration T [] = 0 := by
  simp [minDuration, latchPulses, clockPulses]

theorem minDuration_singleton (e : Event) : minDuration T [e] = eventDuration T e := by
  cases e with
  | w v =>
    have hcount : ∀ u : Byte, [Event.w v].count (.w u) = if v = u then 1 else 0 := by
      simp [List.count_singleton]
    simp only [minDuration, latchPulses, clockPulses, hcount, eventDuration]
    by_cases hlatch : v = 0x0C#8
    · simp [hlatch, Event.delayDuration]
    · simp [hlatch, Event.delayDuration]
  | p m | s l | d k =>
    simp [minDuration, latchPulses, clockPulses, eventDuration, Event.delayDuration]

theorem minDuration_cons (e : Event) (es : List Event) :
    minDuration T (e :: es) = eventDuration T e + minDuration T es := by
  rw [← minDuration_singleton, ← minDuration_append, List.singleton_append]

theorem minDuration_repeated (n : Nat) (es : List Event) :
    minDuration T (repeated n es) = n * minDuration T es := by
  rw [← copies_eq_repeated, minDuration_copies]

theorem minDuration_frameTrace : minDuration T frameTrace = 16 * T.tPulse := by
  simp [frameTrace, minDuration_repeated, minDuration_cons, minDuration_nil,
    eventDuration]
  ring

theorem minDuration_mouseTrace (l : Line) :
    minDuration T (mouseTrace l) = 16 * T.tPulse + 16 * T.tSettle := by
  simp [mouseTrace, minDuration_repeated, minDuration_cons, minDuration_nil, eventDuration,
    Delay.duration]
  ring

theorem minDuration_sensTrace : minDuration T sensTrace =
    47 * T.tPulse + 15 * T.tSettle + T.tSensLong + 31 * T.tSensGap := by
  simp [sensTrace, minDuration_append, minDuration_repeated, minDuration_cons, minDuration_nil,
    eventDuration, Delay.duration]
  ring

theorem minDuration_mouseProbeTrace (l : Line) :
    minDuration T (mouseProbeTrace l) = 80 * T.tPulse + 32 * T.tSettle := by
  simp only [mouseProbeTrace, minDuration_append, minDuration_frameTrace, minDuration_mouseTrace]
  ring

theorem minDuration_commandTrace (i : Instr) (found : Bool) :
    minDuration T (commandTrace i found) = leastDuration T i found := by
  cases i with
  | init | flush | platch | pclock | sample l | wait n =>
    simp [commandTrace, leastDuration, minDuration_cons, minDuration_nil, eventDuration,
      Delay.duration]
  | rdpad p => exact minDuration_frameTrace T
  | rdmouse p => exact minDuration_mouseTrace T (dataLine p)
  | setsens p level => exact minDuration_sensTrace T
  | classify p =>
    cases found with
    | true => exact minDuration_mouseProbeTrace T (dataLine p)
    | false => exact minDuration_frameTrace T

end Durations

/-! ### The sticky bits (R272; spec/10_state.md R44; spec/60_exceptions.md R248) -/

/-- INITD and ERRS, where set in `s`, are set in `t`. -/
structure KeepsSticky (s t : State) : Prop where
  initd : s.csr.initd = true → t.csr.initd = true
  errs : s.csr.errs = true → t.csr.errs = true

theorem KeepsSticky.of_csr {s t : State} (h : t.csr = s.csr) : KeepsSticky s t :=
  ⟨fun hs => h ▸ hs, fun hs => h ▸ hs⟩

/-- A refusal sets ERRS, and a success writes ERR only. -/
theorem refuseCommand_keepsSticky (e : CmdError) (s : State) : KeepsSticky s (refuseCommand e s) :=
  ⟨id, fun _ => rfl⟩

theorem exec_keepsSticky {i : Instr} {s t : State} (h : exec i s = .next t) : KeepsSticky s t := by
  obtain ⟨e, -, rfl⟩ | ⟨-, rfl⟩ := exec_cases h
  · exact refuseCommand_keepsSticky e s
  · exact ⟨fun hinit => commandBody_initd i (s := openTransaction s) hinit,
      fun herrs => (commandBody_errs i (openTransaction s)).trans herrs⟩

theorem issue_keepsSticky {s t : State} (h : issue s = .next t) : KeepsSticky s t := by
  obtain ⟨i, -, hi⟩ | ⟨e, -, he⟩ := issue_cases s
  · exact exec_keepsSticky (hi.symm.trans h)
  · cases he.symm.trans h
    exact refuseCommand_keepsSticky e s

theorem hostWrite_keepsSticky {off : Offset} {v : Byte} {s t : State}
    (h : hostWrite off v s = .next t) : KeepsSticky s t := by
  obtain ⟨-, hw⟩ | ⟨-, hw⟩ | ⟨-, -, hw⟩ := hostWrite_cases off v s
  · cases hw.symm.trans h
    exact .of_csr rfl
  · obtain ⟨hinitd, herrs⟩ := issue_keepsSticky (hw.symm.trans h)
    exact ⟨hinitd, herrs⟩
  · cases hw.symm.trans h
    exact .of_csr rfl

theorem takeInput_keepsSticky {i : Input} {s t : State} (hi : resets i = false)
    (h : takeInput i s = .next t) : KeepsSticky s t := by
  cases i with
  | read off =>
    cases h
    exact .of_csr rfl
  | write off v => exact hostWrite_keepsSticky h
  | reset => exact absurd hi Bool.noConfusion
  | issueThenReset v n => exact absurd hi Bool.noConfusion

end Sys2Proof.Machine
end

section
/-! PROOF. The settled obligations about reset, hazards and timing. -/

namespace Sys2Proof.Proofs

open Sys2Proof Sys2Proof.Machine Sys2Proof.Claims

/-- Settles O24: the command runs, so its body decides FPOS, and RDMOUSE asks for FPOS = 0x8F. -/
theorem interruptedFrameRefused : Obligations.InterruptedFrameRefused := by
  unfold Obligations.InterruptedFrameRefused
  intro i p s t hinit hfpos h
  have hran := h.symm.trans (exec_of_check_none (commandCheck_in_sequence i hinit hfpos))
  have hinit' : (commandBody i (openTransaction s)).csr.initd = true :=
    commandBody_initd i (s := openTransaction s) hinit
  refine ⟨fun hi => ?_, fun hi => ?_, fun q hi => ?_, fun q hi => ?_⟩
  · cases hran
    exact rdmouse_refused_seq p hinit' (commandBody_leaves_sequence (s := openTransaction s) hfpos hi)
  · cases hran
    exact rdmouse_in_sequence p hinit' (commandBody_keeps_sequence (s := openTransaction s) hfpos hi)
  · cases hran
    exact ⟨rfl, commandBody_keeps_sequence (s := openTransaction s) hfpos (.inr (.inr (.inr ⟨q, hi⟩)))⟩
  · subst hi
    exact rdmouse_after_classify p hinit h

/-- Settles O31: a CLASSIFY that ends with ERR = 0 was issued after INIT. -/
theorem rdmouseAfterClassify : Obligations.RdmouseAfterClassify := by
  unfold Obligations.RdmouseAfterClassify
  exact fun p q s t h herr => rdmouse_after_classify q (initd_of_err_eq_zero rfl h herr) h

/-- Settles O37: the trace of a command that ran is `commandTrace`, whose counts are the table's. -/
theorem traceCounts : Obligations.TraceCounts := by
  unfold Obligations.TraceCounts
  intro i s t h
  refine ⟨fun herr n => ?_, exec_trace_of_refused h⟩
  rw [exec_trace h herr, counts_commandTrace]

/-- Settles O38: the bound of `commandTrace`, and the same in periods of the clock. -/
theorem leastDurationOfCommand : Obligations.LeastDurationOfCommand := by
  unfold Obligations.LeastDurationOfCommand
  intro T i s t h herr
  rw [minClockPeriods, Timing.clockPeriods, exec_trace h herr, minDuration_commandTrace]
  exact ⟨rfl, rfl⟩

/-- Settles O41: the idle step keeps the state, and only the inputs that reset clear either bit. -/
theorem onlyResetClearsSticky : Obligations.OnlyResetClearsSticky := by
  unfold Obligations.OnlyResetClearsSticky
  intro s t h hin
  cases hbox : s.inbox with
  | nil =>
    cases (step_idle hbox).symm.trans h
    exact ⟨id, id⟩
  | cons i rest =>
    rw [step_of_inbox s i rest hbox] at h
    obtain ⟨hinitd, herrs⟩ := takeInput_keepsSticky (hin i rest hbox) h
    exact ⟨hinitd, herrs⟩

/-- Settles O53: the registers after the reset input are those of `State.reset` (`resetValues`). -/
theorem resetInput : Obligations.ResetInput := by
  unfold Obligations.ResetInput
  intro s rest h
  obtain ⟨hpad1, hpad2, hmouse1, hmouse2, hbrand, hres, hcmd, hcsr, hpout, hpdir, hfpos, -, hlines⟩ :=
    resetValues
  exact ⟨_, step_of_inbox s .reset rest h, List.append_nil _, rfl, hpad1, hpad2, hmouse1, hmouse2,
    hbrand, hres, hcmd, hcsr, hpout, hpdir, hfpos, hlines⟩

end Sys2Proof.Proofs
end
